-- ==== Sys2Proof/Word.lean ====
section
/-! DEFINITION. The word types of RFPE: their widths are the Layer B parameters of 00_scope.md rule R34. -/

namespace Sys2Proof

/-- A word of the register space: one operand register, one code word (`XLEN` = 32 bits; R11, R14, R30, R34). -/
abbrev Word := BitVec 32

/-- A number of microseconds: a segment's duration, the remaining wait, a SLEEP answer (`DURW` = `XLEN` + 5 bits;
R20, R22, R34, R67). -/
abbrev Dur := BitVec 37

/-- A segment index in the plan (`XLEN` + 1 bits; R18). -/
abbrev SegIdx := BitVec 33

end Sys2Proof
end

