-- ==== Sys2Proof/Syntax.lean ====
section
/-! DEFINITION. The operations of RFPE: one constructor of `Instr` for each row of spec/opcode_table.json
(30_encoding.md rule R66, and the two further CMD codes of 10_state.md rule R31). -/

namespace Sys2Proof

/-- A pin level (R62; Layer B encoding HIGH = 1, LOW = 0, R34). -/
inductive Level where
  | low
  | high
deriving DecidableEq, Repr

/-- A SYMBOL: one bit of a SwitchCode, value 0 (`false`) or 1 (`true`); there is no third value (R63). -/
abbrev Symbol := Bool

/-- The operations of the operation map (R66) and the CMD codes 00 and 11 (R31). -/
inductive Instr where
  /-- TRANSMIT (START), CMD code 01. Its operands are the operand registers and the code list (R65, R100). -/
  | transmit
  /-- ABORT, CMD code 10; no operand (R114). -/
  | abort
  /-- ENCODE of a code word and a bit length; selected by no bit pattern (R80). -/
  | encode (code bitLength : Word)
  /-- SCHEDULE of a symbol sequence and a pulse length; selected by no bit pattern (R90). -/
  | schedule (symbols : List Symbol) (pulseLength : Word)
  /-- SYM0, SYMBOL bit 0, with its implicit operand p (R92). -/
  | sym0 (pulseLength : Word)
  /-- SYM1, SYMBOL bit 1, with its implicit operand p (R93). -/
  | sym1 (pulseLength : Word)
  /-- SYNC, the footer after the last symbol, with its implicit operand p; selected by no bit pattern (R94). -/
  | sync (pulseLength : Word)
  /-- SETLEVEL, PORT op 00 (R132). -/
  | setLevel (pin : Word) (level : Level)
  /-- SLEEP, PORT op 01; the request carries the pin, which the environment ignores (R67, R134). -/
  | sleep (pin : Word) (duration : Dur)
  /-- ACQUIRE, PORT op 10 (R136). -/
  | acquire (pin : Word)
  /-- RELEASE, PORT op 11 (R138). -/
  | release (pin : Word)
  /-- NOP, CMD code 00 (R31). -/
  | nop
  /-- The reserved CMD code 11 (R31, R73). -/
  | cmdReserved
deriving DecidableEq, Repr

end Sys2Proof
end

