-- ==== Sys2Proof/WellFormed.lean ====
section
/-! DEFINITION. Which operand values an operation may carry, as the spec restricts them. -/

namespace Sys2Proof

/-- The operand restrictions of the spec: a SLEEP request's duration is at least 1 (R67, R134), and the pulse length
of SYM0, SYM1 and SYNC is at least 1 (R92, R93, R94). ENCODE and SCHEDULE have none: a bit length or a pulse length of
0 is an operand for which they raise InvalidParameter (R82, R96). The level of a SETLEVEL is one of two by its type. -/
def Instr.wellFormed : Instr → Bool
  | .sleep _ d => 1 ≤ d.toNat
  | .sym0 p => 1 ≤ p.toNat
  | .sym1 p => 1 ≤ p.toNat
  | .sync p => 1 ≤ p.toNat
  | .transmit => true
  | .abort => true
  | .encode _ _ => true
  | .schedule _ _ => true
  | .setLevel _ _ => true
  | .acquire _ => true
  | .release _ => true
  | .nop => true
  | .cmdReserved => true

end Sys2Proof
end

