-- ==== Sys2Proof/Decode.lean ====
section
/-! DEFINITION. From bits to operations and back: the three formats the hardware decodes or issues, CMD (30_encoding.md
R65), SYMBOL (R63) and PORT (R67), and the pattern-selected rows of spec/opcode_table.json. -/

namespace Sys2Proof

/-- A bit pattern in one of the formats that select an operation (R60, R66). The format is known from where the bits
stand, never from the bits: `cmd` is a word written to register index 0, `symbol` one bit of a code word with the pulse
length of the SCHEDULE in progress, `port` a port request `{op, pin, arg}` laid out with `op` at bits 1..0, `pin` at bits
33..2 and `arg` at bits 70..34 (log 6: the spec gives the three fields and their widths, not their places). -/
inductive Encoded where
  | cmd (w : Word)
  | symbol (bit : BitVec 1) (pulseLength : Word)
  | port (request : BitVec 71)
deriving DecidableEq, Repr

/-- Why a bit pattern is no operation. -/
inductive DecodeError where
  /-- The `arg` of a SETLEVEL request is not a one-bit level (R67). -/
  | levelArgNotOneBit
deriving DecidableEq, Repr

/-- The level a bit stands for: HIGH = 1, LOW = 0 (R34, R132). -/
def levelOfBit (b : Bool) : Level := if b then .high else .low

/-- The bit that stands for a level: HIGH = 1, LOW = 0 (R34, R132). -/
def Level.bit : Level → BitVec 1
  | .high => 1
  | .low => 0

/-- CMD: bits 1..0 are the command code, the other bits are ignored (R31, R65). -/
def decodeCmd (w : Word) : Instr :=
  match (w.extractLsb' 0 2).toNat with
  | 0 => .nop
  | 1 => .transmit
  | 2 => .abort
  | _ => .cmdReserved

/-- SYMBOL: value 0 selects SYM0, value 1 selects SYM1 (R63, R66). -/
def decodeSymbol (v : Symbol) (p : Word) : Instr := if v then .sym1 p else .sym0 p

/-- The fields of a PORT request (R67). -/
def portOp (r : BitVec 71) : BitVec 2 := r.extractLsb' 0 2

/-- The `pin` field of a PORT request (R67). -/
def portPin (r : BitVec 71) : Word := r.extractLsb' 2 32

/-- The `arg` field of a PORT request (R67). -/
def portArg (r : BitVec 71) : Dur := r.extractLsb' 34 37

/-- PORT: `op` 00 SETLEVEL, 01 SLEEP, 10 ACQUIRE, 11 RELEASE; `arg` is unused by the last two (R67). -/
def decodePort (r : BitVec 71) : Except DecodeError Instr :=
  match (portOp r).toNat with
  | 0 =>
    if (portArg r).toNat ≤ 1 then .ok (.setLevel (portPin r) (levelOfBit ((portArg r).toNat == 1)))
    else .error .levelArgNotOneBit
  | 1 => .ok (.sleep (portPin r) (portArg r))
  | 2 => .ok (.acquire (portPin r))
  | _ => .ok (.release (portPin r))

/-- The operation a bit pattern selects, or why it selects none (R66). -/
def decode : Encoded → Except DecodeError Instr
  | .cmd w => .ok (decodeCmd w)
  | .symbol b p => .ok (decodeSymbol (b == 1) p)
  | .port r => decodePort r

/-- A PORT request from its fields (R67). -/
def portRequest (op : BitVec 2) (pin : Word) (arg : Dur) : BitVec 71 := arg ++ (pin ++ op)

/-- The bit pattern that selects an operation, with every ignored or unused bit 0; `none` for the three operations
that no bit pattern selects (R66: ENCODE, SCHEDULE and SYNC). -/
def encode : Instr → Option Encoded
  | .nop => some (.cmd 0)
  | .transmit => some (.cmd 1)
  | .abort => some (.cmd 2)
  | .cmdReserved => some (.cmd 3)
  | .sym0 p => some (.symbol 0 p)
  | .sym1 p => some (.symbol 1 p)
  | .setLevel q lv => some (.port (portRequest 0 q (lv.bit.setWidth 37)))
  | .sleep q d => some (.port (portRequest 1 q d))
  | .acquire q => some (.port (portRequest 2 q 0))
  | .release q => some (.port (portRequest 3 q 0))
  | .encode _ _ => none
  | .schedule _ _ => none
  | .sync _ => none

/-- The format a row of the opcode table has, told from the number of bits the table gives it: a CMD row has 32 bits, a
SYMBOL row 1, a PORT row the 2 bits of its `op`. In whole bytes both of the last are 8 bits, and the bits cannot tell a
symbol from a port op; 8 bits are read as PORT, the one of the two formats that has further operand bits (log 7). -/
def encodedOfTableWord (nbits w : Nat) : Option Encoded :=
  if nbits = 32 then some (.cmd (BitVec.ofNat 32 w))
  else if nbits = 1 then some (.symbol (BitVec.ofNat 1 w) 0)
  else if nbits = 2 ∨ nbits = 8 ∨ nbits = 72 then some (.port (BitVec.ofNat 71 w))
  else none

/-- The operation the decoder reads from the `nbits` bits `w` of a row of spec/opcode_table.json, every bit above them
0. -/
def decodeTableWord (nbits w : Nat) : Option Instr :=
  match encodedOfTableWord nbits w with
  | none => none
  | some e =>
    match decode e with
    | .ok i => some i
    | .error _ => none

end Sys2Proof
end

