-- ==== Sys2Proof/Config.lean ====
section
/-! DEFINITION. The parameters of RFPE (00_scope.md rule R34) and the free values: what the environment behind the GPIO
port answers (00_scope.md R8, 43_gpio_port.md R130) when no answer has been written down for it. -/

namespace Sys2Proof.Config

/-- `XLEN`, the width of an operand register and of a code word (R34). DESIGN CHOICE (log 1): the value 32 of the
table is fixed here, the parameter is OPEN in the spec. -/
def xlen : Nat := 32

/-- `DURW` = `XLEN` + 5, the width of a duration and of REM (R34). -/
def durw : Nat := xlen + 5

/-- `U0H`: units HIGH for symbol 0 (R34, R68). -/
def u0h : Nat := 1

/-- `U0L`: units LOW for symbol 0 (R34, R68). -/
def u0l : Nat := 3

/-- `U1H`: units HIGH for symbol 1 (R34, R68). -/
def u1h : Nat := 3

/-- `U1L`: units LOW for symbol 1 (R34, R68). -/
def u1l : Nat := 1

/-- `USH`: units HIGH of the sync footer (R34, R68). -/
def ush : Nat := 1

/-- `USL`: units LOW of the sync footer (R34, R68). -/
def usl : Nat := 31

/-- `HAS_ABORT`: the ABORT request exists (R34). -/
def hasAbort : Bool := true

/-- The value the capacity `MAXCODES` has in `State.reset` (R34: OPEN, at least 1). DESIGN CHOICE (log 2): the largest
number the register `NCODES` holds. The capacity itself is a field of the state that no step changes, so that a
statement about every state is a statement about every capacity. -/
def resetMaxCodes : Nat := 2 ^ xlen - 1

/-- `JITTER`, the bound on how far a realised waveform departs from nominal timing (R34, R192): OPEN, and "no rule
depends on it", so nothing in the model reads it. -/
opaque jitter : Nat

/-- FREE VALUE (log 5): the environment's answer, `ok` = true or `fail` = false, to the `n`-th ACQUIRE or SETLEVEL
that finds no written answer (R133, R137: the environment may answer `fail` to any of them). -/
opaque portAnswer : Nat → Bool

/-- FREE VALUE (log 5): the microseconds the environment reports as not yet slept, for the `n`-th SLEEP that finds no
written answer, before the bound of R135 is put on it. -/
opaque sleepAnswer : Nat → Dur

end Sys2Proof.Config
end

