-- ==== Sys2Proof/Machine/State.lean ====
section
/-! DEFINITION. The state of RFPE as plain data (10_state.md), the state after reset (R33), and the named reasons a step
can stop. -/

namespace Sys2Proof.Machine

/-- The value of `STATE`, the sequencer state (R15, R16). Codes 5 to 7 are reserved and never taken, so they are no
value of this type. -/
inductive SeqState where
  | idle
  | acquiringPin
  | encoding
  | transmitting
  | releasing
deriving DecidableEq, Repr

/-- The kinds of event (R150, R151): the value of `RESULT`, with `none` for "run in progress, or success". -/
inductive Cause where
  | none
  | invalidParameter
  | hardwareUnavailable
  | timingInterrupted
  | aborted
deriving DecidableEq, Repr

/-- The failing stage (R152): the value of `STAGE`. -/
inductive Stage where
  | none
  | encode
  | schedule
  | acquire
  | transmit
deriving DecidableEq, Repr

/-- SEGMENT: a level and its duration in microseconds (R62). -/
structure Segment where
  level : Level
  duration : Dur
deriving DecidableEq, Repr

/-- One port transaction with the environment's answer (R9, R67, R130); `true` is the answer `ok`. -/
inductive Transaction where
  | setLevel (pin : Word) (level : Level) (ok : Bool)
  | sleep (pin : Word) (duration remaining : Dur)
  | acquire (pin : Word) (ok : Bool)
  | release (pin : Word)
deriving DecidableEq, Repr

/-- One access of the host to the register space, at a word index (R30, R45). -/
inductive HostAccess where
  | read (index : Nat)
  | write (index : Nat) (value : Word)
deriving DecidableEq, Repr

/-- Whose move is next (R8, R119: host accesses happen between the engine's steps): the engine's, one host access, or
a reset of the machine (R180, R181). -/
inductive Slot where
  | engine
  | host (access : HostAccess)
  | reset
deriving DecidableEq, Repr

/-- The code list memory `CODE` (R14): (index, word) pairs, indices strictly rising. An index that is not listed has
no value (R33). The spec's unit of this memory is the whole word; it has no bytes (R43). -/
abbrev Memory := List (Nat × Word)

/-- The canonical form of the code list memory: indices strictly rising. Every listed entry differs from what an
unlisted index reads as, which is no value. -/
abbrev Memory.wf (m : Memory) : Prop := m.Pairwise (fun x y => x.1 < y.1)

/-- The whole state. The fields down to `rem`, the flags and the result record are the spec's; the last group is the
model's own (INVENTORY.md says which and why). -/
structure State where
  /-- `NCODES`: the number of codes (R11). -/
  ncodes : Word
  /-- `ITERATIONS`: the repeat count (R11). -/
  iterations : Word
  /-- `PIN`: the pin identifier, opaque (R11, R70). -/
  pin : Word
  /-- `PULSELEN`: the base pulse length in microseconds (R11). -/
  pulselen : Word
  /-- `BITLEN`: the bit length (R11). -/
  bitlen : Word
  /-- `CODE`: the code list memory (R14). -/
  codes : Memory
  /-- `STATE` (R15, R16). -/
  st : SeqState
  /-- `PHASE` (R16). -/
  phase : Bool
  /-- The code index k (R18). -/
  k : Word
  /-- The repeat index r (R18). -/
  r : Word
  /-- The segment index s (R18). -/
  seg : SegIdx
  /-- `PLAN`: the plan buffer (R20). -/
  plan : List Segment
  /-- `REM`: the remaining wait (R22). -/
  rem : Dur
  /-- `DONE` (R25). -/
  done : Bool
  /-- `OWNED` (R26). -/
  owned : Bool
  /-- `LEVEL`: the engine's record of the pin level (R27). -/
  level : Level
  /-- `ABORTP`: abort pending (R28). -/
  abortp : Bool
  /-- `RESULT` (R29, R151). -/
  result : Cause
  /-- `STAGE` (R29, R152). -/
  stage : Stage
  /-- `BADPARAM` (R29, R153). -/
  badparam : BitVec 4
  /-- `CIDXV`: `ERRIDX` is valid (R29). -/
  cidxv : Bool
  /-- `ERRIDX`: the captured code index (R29). -/
  erridx : Word
  /-- MODEL: the parameter `MAXCODES` (R34), taken as an argument by standing in the state; no step changes it (log 2). -/
  maxCodes : Nat
  /-- MODEL: the moves to come, first first; when it is empty the engine moves (log 3). -/
  moves : List Slot
  /-- MODEL: the environment's written answers to ACQUIRE and SETLEVEL, next first (log 4). -/
  okAnswers : List Bool
  /-- MODEL: the environment's written answers to SLEEP, next first (log 4). -/
  sleepAnswers : List Dur
  /-- MODEL: how many answers were free values of Config (log 5). -/
  draws : Nat
  /-- MODEL: every port transaction since the initial state, oldest first. The port trace of a run (R9) is its end. -/
  trace : List Transaction
  /-- MODEL: how many transactions of `trace` are older than the last run; an accepted START sets it, and so does a reset
  (R9; log 22). -/
  runFrom : Nat
  /-- MODEL: the sequence the last ENCODE returned, empty outside the encoding of a code (R19, R21; log 8). -/
  symOut : List Symbol
  /-- MODEL: the segments the last SCHEDULE, SYM0, SYM1 or SYNC returned, empty outside the encoding of a code (log 8). -/
  segOut : List Segment
  /-- MODEL: the word the host's last register read returned (log 9). -/
  rdata : Word
deriving DecidableEq, Repr

/-- The state after reset (R33, R180). `PLAN` and `CODE[i]`, which R33 leaves unspecified, hold nothing (log 10); the
model's own fields stand at the values of their log entries: no written answer, no move, no transaction. -/
def State.reset : State where
  ncodes := 0
  iterations := 0
  pin := 0
  pulselen := 0
  bitlen := 0
  codes := []
  st := .idle
  phase := false
  k := 0
  r := 0
  seg := 0
  plan := []
  rem := 0
  done := false
  owned := false
  level := .low
  abortp := false
  result := .none
  stage := .none
  badparam := 0
  cidxv := false
  erridx := 0
  maxCodes := Config.resetMaxCodes
  moves := []
  okAnswers := []
  sleepAnswers := []
  draws := 0
  trace := []
  runFrom := 0
  symOut := []
  segOut := []
  rdata := 0

/-- Why the machine stops with a fault. -/
inductive Fault where
  /-- A read, by the ENCODING step or by the host, of a `CODE[i]` not written since reset: it has no value (R33;
  93_implementation_defined.md U10). Safe: the model stops where hardware would go on with some value. -/
  | codeUnwritten
  /-- The DRIVE step, or a SETLEVEL in its place, finds no segment `PLAN[s]`. R44 says the engine's accesses are always
  in range; only states that no run reaches get here. Safe. -/
  | planIndexOutOfRange
deriving DecidableEq, Repr

/-- Why the model gives a step no meaning. -/
inductive Refusal where
  /-- An instruction that has no meaning yet; raised by an arm of exec only. Safe. -/
  | notModelled (mnemonic : String)
  /-- The environment's written answer to a SLEEP exceeds the request: it breaks its contract, and a model refuses such
  an answer (R135; U8). Raised by SLEEP. Safe: nothing is claimed of such a run. -/
  | sleepAnswerTooLong
  /-- A reset while a run is in progress, which the spec leaves undefined and a model refuses (R181; U9). Raised by a
  reset move. Safe: nothing is claimed of such a run. -/
  | resetDuringRun
deriving DecidableEq, Repr

end Sys2Proof.Machine
end

