-- ==== Sys2Proof/Machine/Flags.lean ====
section
/-! DEFINITION. The status flags, the STATUS word and the codes in it (10_state.md sections 7 to 9, 60_exceptions.md
R151 to R153). There are no arithmetic flags (R23). -/

namespace Sys2Proof.Machine

/-- The code of a sequencer state (R16). -/
def SeqState.code : SeqState → BitVec 3
  | .idle => 0
  | .acquiringPin => 1
  | .encoding => 2
  | .transmitting => 3
  | .releasing => 4

/-- The cause code (R151). -/
def Cause.code : Cause → BitVec 3
  | .none => 0
  | .invalidParameter => 1
  | .hardwareUnavailable => 2
  | .timingInterrupted => 3
  | .aborted => 4

/-- The stage code (R152). -/
def Stage.code : Stage → BitVec 3
  | .none => 0
  | .encode => 1
  | .schedule => 2
  | .acquire => 3
  | .transmit => 4

/-- `BUSY` is 1 exactly when `STATE != IDLE` (R24). -/
def State.busy (s : State) : Bool := s.st != .idle

/-- The `STATUS` word (R32): bits 2..0 STATE, 3 PHASE, 4 BUSY, 5 DONE, 6 OWNED, 7 LEVEL, 10..8 RESULT, 13..11 STAGE,
17..14 BADPARAM, 18 CIDXV, 19 ABORTP, the rest 0. -/
def statusWord (s : State) : Word :=
  (0#12 ++ BitVec.ofBool s.abortp ++ BitVec.ofBool s.cidxv ++ s.badparam ++ s.stage.code ++ s.result.code ++
    s.level.bit ++ BitVec.ofBool s.owned ++ BitVec.ofBool s.done ++ BitVec.ofBool s.busy ++ BitVec.ofBool s.phase ++
    s.st.code : BitVec 32)

/-- The `BADPARAM` mask of the configuration (R103, R153): bit 0 `PULSELEN`, bit 1 `BITLEN`, bit 2 `ITERATIONS`, each
non-positive, that is 0 on an unsigned register (R12); bit 3 the empty code list. -/
def paramMask (s : State) : BitVec 4 :=
  BitVec.ofBool (s.ncodes == 0) ++ BitVec.ofBool (s.iterations == 0) ++ BitVec.ofBool (s.bitlen == 0) ++
    BitVec.ofBool (s.pulselen == 0)

/-- The stage of an InvalidParameter: that of the lowest set bit of the mask (R153). -/
def stageOfMask (m : BitVec 4) : Stage :=
  if m.getLsbD 0 then .schedule
  else if m.getLsbD 1 then .encode
  else .transmit

end Sys2Proof.Machine
end

