-- ==== Sys2Proof/Machine/Operands.lean ====
section
/-! DEFINITION. The operands the hardware computes (30_encoding.md section 2): the bits of a code word and the durations
of the segments. All arithmetic is unsigned and exact (R72). -/

namespace Sys2Proof.Machine

/-- `bit(c, j) = floor(c / 2^j) mod 2` (00_scope.md section 7). -/
def bitAt (c j : Nat) : Bool := c.testBit j

/-- The symbols of a code word, position 0 the most significant of its `b` low bits (R69, R80, R81): symbol position `i`
is `bit(c, b - 1 - i)`. Bits at `b` and above are dropped (R83); missing high bits are 0 (R84). -/
def encodeCode (c b : Nat) : List Symbol := (List.range b).map fun i => bitAt c (b - 1 - i)

/-- A segment's duration, `units * pulseLength` microseconds (R68); the product fits `DURW` bits for the units of R34
(R72). -/
def duration (units : Nat) (p : Word) : Dur := BitVec.ofNat 37 (units * p.toNat)

/-- A HIGH segment then a LOW segment, of the given units. -/
def segmentPair (high low : Nat) (p : Word) : List Segment := [⟨.high, duration high p⟩, ⟨.low, duration low p⟩]

/-- SYM0(p) = [(HIGH, U0H * p), (LOW, U0L * p)] (R92). -/
def sym0Segments (p : Word) : List Segment := segmentPair Config.u0h Config.u0l p

/-- SYM1(p) = [(HIGH, U1H * p), (LOW, U1L * p)] (R93). -/
def sym1Segments (p : Word) : List Segment := segmentPair Config.u1h Config.u1l p

/-- SYNC(p) = [(HIGH, USH * p), (LOW, USL * p)] (R94). -/
def syncSegments (p : Word) : List Segment := segmentPair Config.ush Config.usl p

/-- The two segments of one symbol (R63, R91). -/
def symbolSegments (p : Word) (v : Symbol) : List Segment := if v then sym1Segments p else sym0Segments p

/-- The plan SCHEDULE returns: each symbol's segments in input order, then the footer, once (R90, R91). -/
def schedulePlan (symbols : List Symbol) (p : Word) : List Segment :=
  symbols.flatMap (symbolSegments p) ++ syncSegments p

/-- `plan(c)`: the plan of one code under a bit length and a pulse length (00_scope.md section 7). -/
def planOf (c b p : Word) : List Segment := schedulePlan (encodeCode c.toNat b.toNat) p

end Sys2Proof.Machine
end

