-- ==== Sys2Proof/Machine/Ops.lean ====
section
/-! DEFINITION. The named operations over the state: the code list memory, the sequencer position, the port and the
environment's answers, raising an error and clearing the record (60_exceptions.md R154, R164). -/

namespace Sys2Proof.Machine

/-- What a meaning answers. -/
abbrev Answer := Host.Outcome State Fault Refusal

/-- Go on from a next state; a fault or a refusal stands. -/
def andThen (o : Answer) (f : State → Answer) : Answer :=
  match o with
  | .next s => f s
  | .fault e => .fault e
  | .refused e => .refused e

/-! The code list memory (R14, R40, R45). -/

/-- `MemRead(CODE, i)`: one whole word, or no value where nothing was written since reset (R33). -/
def memRead : Memory → Nat → Option Word
  | [], _ => none
  | (a, v) :: m, i => if a = i then some v else memRead m i

/-- `MemWrite(CODE, i, v)`. The canonical form is kept. -/
def memWrite : Memory → Nat → Word → Memory
  | [], i, v => [(i, v)]
  | (a, w) :: m, i, v =>
    if i < a then (i, v) :: (a, w) :: m
    else if i = a then (i, v) :: m
    else (a, w) :: memWrite m i v

/-! The sequencer position (R16, R17). -/

/-- The step that `(STATE, PHASE)` names: one value for each rule R104 to R112. `PHASE` is not used in IDLE and
ENCODING. -/
inductive Position where
  | idle
  | acq
  | initLow
  | encoding
  | drive
  | wait
  | finalLow
  | rel
deriving DecidableEq, Repr

/-- The position that `(STATE, PHASE)` names (R16). -/
def positionOf : SeqState → Bool → Position
  | .idle, _ => .idle
  | .acquiringPin, false => .acq
  | .acquiringPin, true => .initLow
  | .encoding, _ => .encoding
  | .transmitting, false => .drive
  | .transmitting, true => .wait
  | .releasing, false => .finalLow
  | .releasing, true => .rel

/-- The position of a state. -/
def State.position (s : State) : Position := positionOf s.st s.phase

/-- `(STATE, PHASE) <- (st, phase)`. -/
def State.goTo (s : State) (st : SeqState) (phase : Bool) : State := { s with st := st, phase := phase }

/-- `PLAN[s]` (R20), where the buffer has it. -/
def State.segment (s : State) : Option Segment := s.plan[s.seg.toNat]?

/-! Errors (R154). -/

/-- What `raise` is given: the kind, the stage, the mask of bad parameters or 0, the code index if any. -/
structure ErrorInfo where
  cause : Cause
  stage : Stage
  badparam : BitVec 4
  codeIndex : Option Word
deriving DecidableEq, Repr

/-- Part (1) of `raise` (R154): the record, written only if none is there; the first error of a run wins. -/
def State.writeRecord (s : State) (e : ErrorInfo) : State :=
  if s.result = .none then
    { s with
      result := e.cause
      stage := e.stage
      badparam := e.badparam
      cidxv := e.codeIndex.isSome
      erridx := e.codeIndex.getD 0 }
  else s

/-- Part (2) of `raise` (R154): to the cleanup if the handle is held, else to IDLE with the run ended. -/
def State.endRun (s : State) : State :=
  if s.owned then s.goTo .releasing false
  else { s.goTo .idle false with done := true, abortp := false }

/-- `raise E(info)` (R154): this machine's taking of an exception. There is no vector and no handler (R162). -/
def State.raise (s : State) (e : ErrorInfo) : State := (s.writeRecord e).endRun

/-- What the START step clears (R103, R164): the record, `DONE`, `ABORTP`, the counters and `REM`. There is no return
from an error; this is where a new run leaves the last one behind, and where its port trace begins (R9). -/
def State.clearRun (s : State) : State :=
  { s with
    done := false, result := .none, stage := .none, badparam := 0, cidxv := false, erridx := 0, abortp := false
    k := 0, r := 0, seg := 0, rem := 0, runFrom := s.trace.length }

/-! The GPIO port (43_gpio_port.md). -/

/-- A transaction is appended to the port trace (R130). -/
def State.log (s : State) (t : Transaction) : State := { s with trace := s.trace ++ [t] }

/-- The environment's answer to an ACQUIRE or SETLEVEL: the next written one, else a free value (R130, R133, R137). -/
def State.okAnswer (s : State) : Bool := s.okAnswers.headD (Config.portAnswer s.draws)

/-- The answer is used up. -/
def State.okAnswerTaken (s : State) : State :=
  match s.okAnswers with
  | _ :: rest => { s with okAnswers := rest }
  | [] => { s with draws := s.draws + 1 }

/-- A free answer to SLEEP(`d`) within the bound `0 <= rem <= d` (R135; U7). -/
def freeRemaining (n : Nat) (d : Dur) : Dur := if Config.sleepAnswer n ≤ d then Config.sleepAnswer n else d

/-- The environment's answer to SLEEP(`d`): the next written one, else a free value (R130, R135). -/
def State.sleepAnswer (s : State) (d : Dur) : Dur := s.sleepAnswers.headD (freeRemaining s.draws d)

/-- The answer is used up. -/
def State.sleepAnswerTaken (s : State) : State :=
  match s.sleepAnswers with
  | _ :: rest => { s with sleepAnswers := rest }
  | [] => { s with draws := s.draws + 1 }

/-- `Port(SETLEVEL, pin, level)`: the state once the environment has answered `s.okAnswer`; on `ok` the engine's record
of the level follows (R27, R132). -/
def State.portSetLevel (s : State) (pin : Word) (lv : Level) : State :=
  { s.okAnswerTaken.log (.setLevel pin lv s.okAnswer) with level := if s.okAnswer then lv else s.level }

/-- `Port(ACQUIRE, pin)`: the state once the environment has answered `s.okAnswer`; on `ok` the engine holds the handle
(R26, R136). -/
def State.portAcquire (s : State) (pin : Word) : State :=
  { s.okAnswerTaken.log (.acquire pin s.okAnswer) with owned := s.okAnswer || s.owned }

/-- `Port(RELEASE, pin)`: no answer; the handle is given up (R26, R138). -/
def State.portRelease (s : State) (pin : Word) : State := { s.log (.release pin) with owned := false }

/-- `Port(SLEEP, duration)`: the state once the environment has answered `s.sleepAnswer d` (R134). -/
def State.portSleep (s : State) (pin : Word) (d : Dur) : State :=
  s.sleepAnswerTaken.log (.sleep pin d (s.sleepAnswer d))

end Sys2Proof.Machine
end

