-- ==== Sys2Proof/Machine/BitEncoder.lean ====
section
/-! DEFINITION. The Bit Encoder: the meaning of ENCODE (40_bit_encoder.md). -/

namespace Sys2Proof.Machine

/-- ENCODE (R80): the symbol sequence is its result; a bit length of 0 raises InvalidParameter, stage encode (R82,
R155). It reads and writes no other state. -/
def execEncode (code bitLength : Word) (s : State) : Answer :=
  if bitLength = 0 then .next (s.raise ⟨.invalidParameter, .encode, 0b0010, none⟩)
  else .next { s with symOut := encodeCode code.toNat bitLength.toNat }

end Sys2Proof.Machine
end

