-- ==== Sys2Proof/Machine/GpioPort.lean ====
section
/-! DEFINITION. The GPIO port: the meanings of SETLEVEL, SLEEP, ACQUIRE and RELEASE (43_gpio_port.md), each the
transaction and then what the issuing step does with the answer (42_transmitter.md R104, R105, R108 to R111). -/

namespace Sys2Proof.Machine

/-- HardwareUnavailable at the INIT_LOW step and at ACQUIRE: stage acquire, no code index (R104, R105, R156). -/
def acquireError : ErrorInfo := ⟨.hardwareUnavailable, .acquire, 0, none⟩

/-- HardwareUnavailable at a later SETLEVEL: stage transmit, with the code index where there is one (R108, R110, R152,
R156). -/
def transmitError (codeIndex : Option Word) : ErrorInfo := ⟨.hardwareUnavailable, .transmit, 0, codeIndex⟩

/-- SETLEVEL (R132, R133). At INIT_LOW (R105) the answer `ok` leads to ENCODING with `k` 0; at DRIVE (R108) it loads
`REM` from `PLAN[s]` and leads to WAIT; at FINAL_LOW (R110) either answer leads to REL. The answer `fail` raises
HardwareUnavailable, but for FINAL_LOW, which only records it if no error is recorded. At a position from which the
engine issues no SETLEVEL (R131) the operation does what R132 and R152 say without a step around it (log 11). -/
def execSetLevel (pin : Word) (lv : Level) (s : State) : Answer :=
  let t := s.portSetLevel pin lv
  match s.position, s.segment with
  | .initLow, _ => .next (if s.okAnswer then { t with k := 0 }.goTo .encoding false else t.raise acquireError)
  | .drive, some g =>
    .next (if s.okAnswer then { t with rem := g.duration, phase := true } else t.raise (transmitError (some s.k)))
  | .drive, none => .fault .planIndexOutOfRange
  | .finalLow, _ =>
    .next { (if s.okAnswer then t else t.writeRecord (transmitError none)) with phase := true }
  | _, _ => .next (if s.okAnswer then t else t.raise (transmitError none))

/-- The end of a wait (R109): the next segment, the next repeat, the next code, or all sent. The comparisons are over
exact integers (R72). -/
def afterWait (s : State) : State :=
  if s.seg.toNat < 2 * s.bitlen.toNat + 1 then { s with seg := s.seg + 1, phase := false }
  else if s.r.toNat + 1 < s.iterations.toNat then { s with seg := 0, r := s.r + 1, phase := false }
  else if s.k.toNat + 1 < s.ncodes.toNat then { s with seg := 0, r := 0, k := s.k + 1 }.goTo .encoding false
  else { s with seg := 0, r := 0 }.goTo .releasing false

/-- SLEEP (R134). At WAIT (R109) the answer replaces `REM`, and the answer 0 ends the wait; TimingInterrupted, an answer
above 0, is absorbed there (R157). Elsewhere no flag or register is written by the port (R134; log 11). A written answer
above the request is refused (R135). -/
def execSleep (pin : Word) (d : Dur) (s : State) : Answer :=
  if s.sleepAnswer d ≤ d then
    let t := s.portSleep pin d
    match s.position with
    | .wait => .next (if s.sleepAnswer d = 0 then afterWait { t with rem := 0 } else { t with rem := s.sleepAnswer d })
    | _ => .next t
  else .refused .sleepAnswerTooLong

/-- ACQUIRE (R136, R137). At ACQ (R104) the answer `ok` leads to INIT_LOW. The answer `fail` raises
HardwareUnavailable, stage acquire. -/
def execAcquire (pin : Word) (s : State) : Answer :=
  let t := s.portAcquire pin
  if s.okAnswer then .next (if s.position = .acq then { t with phase := true } else t)
  else .next (t.raise acquireError)

/-- RELEASE (R138). At REL (R111) it ends the run: `ABORTP` cleared, `DONE` set, IDLE. -/
def execRelease (pin : Word) (s : State) : Answer :=
  let t := s.portRelease pin
  .next (if s.position = .rel then { t with abortp := false, done := true }.goTo .idle false else t)

end Sys2Proof.Machine
end

