-- ==== Sys2Proof/Machine/PulseScheduler.lean ====
section
/-! DEFINITION. The Pulse Scheduler: the meanings of SCHEDULE, SYM0, SYM1 and SYNC (41_pulse_scheduler.md). -/

namespace Sys2Proof.Machine

/-- SCHEDULE (R90, R91): the plan is its result; a pulse length of 0 raises InvalidParameter, stage schedule, whatever
the symbols (R96, R155). It reads and writes no other state. -/
def execSchedule (symbols : List Symbol) (pulseLength : Word) (s : State) : Answer :=
  if pulseLength = 0 then .next (s.raise ⟨.invalidParameter, .schedule, 0b0001, none⟩)
  else .next { s with segOut := schedulePlan symbols pulseLength }

/-- SYM0 (R92): its two segments are its result; it raises nothing. -/
def execSym0 (pulseLength : Word) (s : State) : Answer := .next { s with segOut := sym0Segments pulseLength }

/-- SYM1 (R93): its two segments are its result; it raises nothing. -/
def execSym1 (pulseLength : Word) (s : State) : Answer := .next { s with segOut := sym1Segments pulseLength }

/-- SYNC (R94): the footer's two segments are its result; it raises nothing. -/
def execSync (pulseLength : Word) (s : State) : Answer := .next { s with segOut := syncSegments pulseLength }

end Sys2Proof.Machine
end

