-- ==== Sys2Proof/Machine/Transmitter.lean ====
section
/-! DEFINITION. The Transmitter's host commands: the meanings of TRANSMIT (START), ABORT, NOP and the reserved CMD code
(42_transmitter.md R102, R103, R114; 10_state.md R31). -/

namespace Sys2Proof.Machine

/-- The START step (R103): clear the last run, validate all four conditions at once, then raise InvalidParameter or go
to ACQUIRING_PIN. -/
def startStep (s : State) : State :=
  if paramMask s = 0 then s.clearRun.goTo .acquiringPin false
  else s.clearRun.raise ⟨.invalidParameter, stageOfMask (paramMask s), paramMask s, none⟩

/-- TRANSMIT, CMD code 01: acts only in IDLE, else it is ignored (R102, R103). The rest of TRANSMIT's contract (R100)
is carried out by the engine's steps. -/
def execTransmit (s : State) : Answer := .next (if s.st = .idle then startStep s else s)

/-- ABORT, CMD code 10: latches the request while a run is in progress, else it is ignored (R114, R28). -/
def execAbort (s : State) : Answer := .next (if s.st = .idle then s else { s with abortp := true })

/-- NOP, CMD code 00: no effect (R31). -/
def execNop (s : State) : Answer := .next s

/-- The reserved CMD code 11: no effect and no error (R31, R73). -/
def execCmdReserved (s : State) : Answer := .next s

end Sys2Proof.Machine
end

