-- ==== Sys2Proof/Machine/Dispatch.lean ====
section
/-! DEFINITION. One arm per operation. -/

namespace Sys2Proof.Machine

def exec (i : Instr) (s : State) : Host.Outcome State Fault Refusal :=
  match i with
  | .transmit => Sys2Proof.Machine.execTransmit s
  | .abort => Sys2Proof.Machine.execAbort s
  | .encode code bitLength => Sys2Proof.Machine.execEncode code bitLength s
  | .schedule symbols pulseLength => Sys2Proof.Machine.execSchedule symbols pulseLength s
  | .sym0 pulseLength => Sys2Proof.Machine.execSym0 pulseLength s
  | .sym1 pulseLength => Sys2Proof.Machine.execSym1 pulseLength s
  | .sync pulseLength => Sys2Proof.Machine.execSync pulseLength s
  | .setLevel pin level => Sys2Proof.Machine.execSetLevel pin level s
  | .sleep pin duration => Sys2Proof.Machine.execSleep pin duration s
  | .acquire pin => Sys2Proof.Machine.execAcquire pin s
  | .release pin => Sys2Proof.Machine.execRelease pin s
  | .nop => Sys2Proof.Machine.execNop s
  | .cmdReserved => Sys2Proof.Machine.execCmdReserved s

end Sys2Proof.Machine
end

