-- ==== Sys2Proof/Machine/HostBus.lean ====
section
/-! DEFINITION. The register space as the host sees it (10_state.md R13, R30, R31; 20_memory.md R40, R44 to R47), and the
reset of the machine (70_reset_and_hazards.md R180, R181). -/

namespace Sys2Proof.Machine

/-- A host read (R30): `CMD`, the reserved and the absent indices read 0; `ERRIDX` reads 0 while `CIDXV` is 0; a
`CODE[i]` not written since reset has no value (R33). Reads are always allowed and change nothing (R13, R46). -/
def regRead (s : State) (index : Nat) : Option Word :=
  if index = 1 then some (statusWord s)
  else if index = 2 then some (if s.cidxv then s.erridx else 0)
  else if index = 3 then some s.ncodes
  else if index = 4 then some s.iterations
  else if index = 5 then some s.pin
  else if index = 6 then some s.pulselen
  else if index = 7 then some s.bitlen
  else if 16 ≤ index ∧ index < 16 + s.maxCodes then memRead s.codes (index - 16)
  else some 0

/-- A host write to any index but 0 (R13, R30): the configuration is written only while `BUSY` is 0, a value of `NCODES`
above the capacity never; every other write is ignored. -/
def regWrite (s : State) (index : Nat) (v : Word) : State :=
  if s.busy then s
  else if index = 3 then (if v.toNat ≤ s.maxCodes then { s with ncodes := v } else s)
  else if index = 4 then { s with iterations := v }
  else if index = 5 then { s with pin := v }
  else if index = 6 then { s with pulselen := v }
  else if index = 7 then { s with bitlen := v }
  else if 16 ≤ index ∧ index < 16 + s.maxCodes then { s with codes := memWrite s.codes (index - 16) v }
  else s

/-- One host access. A write to index 0 runs the operation its command code selects, at once (R31, R46). -/
def hostStep (a : HostAccess) (s : State) : Answer :=
  match a with
  | .read index =>
    match regRead s index with
    | some v => .next { s with rdata := v }
    | none => .fault .codeUnwritten
  | .write index v => if index = 0 then exec (decodeCmd v) s else .next (regWrite s index v)

/-- Reset of an idle machine (R180): every piece of the spec's state at its value of R33. The world outside, that is the
model's fields for the parameter, the moves, the answers, the trace and the host's last read, is not the machine's to
reset; no run has begun since (R9). -/
def State.toReset (s : State) : State :=
  { State.reset with
    maxCodes := s.maxCodes, moves := s.moves, okAnswers := s.okAnswers, sleepAnswers := s.sleepAnswers
    draws := s.draws, trace := s.trace, runFrom := s.trace.length, rdata := s.rdata }

/-- A reset move: refused while a run is in progress (R181; U9). -/
def resetStep (s : State) : Answer := if s.busy then .refused .resetDuringRun else .next s.toReset

/-- The register writes that `transmit(codes, iterations, pin, pulseLength, bitLength)` expands to, the START write
last (R75). -/
def transmitWrites (codes : List Word) (iterations pin pulseLength bitLength : Word) : List HostAccess :=
  [.write 3 (BitVec.ofNat 32 codes.length), .write 4 iterations, .write 5 pin, .write 6 pulseLength,
    .write 7 bitLength] ++ codes.mapIdx (fun i c => .write (16 + i) c) ++ [.write 0 1]

end Sys2Proof.Machine
end

