-- ==== Sys2Proof/Machine/Sequencer.lean ====
section
/-! DEFINITION. The step machine (42_transmitter.md R119, R104 to R112): which operation each position issues, the
ENCODING step, and whose move it is. -/

namespace Sys2Proof.Machine

/-- The port operation the position issues, with its operands (R104, R105, R108 to R111, R131): `none` in IDLE and
ENCODING, and at DRIVE where there is no segment `PLAN[s]`. -/
def portOperation (s : State) : Option Instr :=
  match s.position with
  | .acq => some (.acquire s.pin)
  | .initLow => some (.setLevel s.pin .low)
  | .drive => s.segment.map fun g => .setLevel s.pin g.level
  | .wait => some (.sleep s.pin s.rem)
  | .finalLow => some (.setLevel s.pin .low)
  | .rel => some (.release s.pin)
  | .idle => none
  | .encoding => none

/-- The end of the ENCODING step (R106): SCHEDULE's result into `PLAN`, `r` and `s` 0, to TRANSMITTING. The results of
ENCODE and SCHEDULE are transient (R19, R21). -/
def State.takePlan (s : State) : State :=
  { s with plan := s.segOut, symOut := [], segOut := [], r := 0, seg := 0 }.goTo .transmitting false

/-- Aborted with the index of the first code not sent (R106, R158). -/
def abortError (k : Word) : ErrorInfo := ⟨.aborted, .transmit, 0, some k⟩

/-- The ENCODING step (R106). An abort that is pending is acted on here, and only here. Otherwise `CODE[k]` is read,
ENCODE runs on it and SCHEDULE on ENCODE's result; where one of them raises (which no run reaches, R106) the step does
nothing further (R154). -/
def encodingStep (s : State) : Answer :=
  if Config.hasAbort && s.abortp then .next (s.raise (abortError s.k))
  else
    match memRead s.codes s.k.toNat with
    | none => .fault .codeUnwritten
    | some c =>
      andThen (exec (.encode c s.bitlen) s) fun s1 =>
        if s.bitlen = 0 then .next s1
        else
          andThen (exec (.schedule s1.symOut s.pulselen) s1) fun s2 =>
            if s.pulselen = 0 then .next s2 else .next s2.takePlan

/-- One step of the engine (R119). In IDLE it takes none (R112). -/
def engineStep (s : State) : Answer :=
  match portOperation s with
  | some i => exec i s
  | none =>
    match s.position with
    | .encoding => encodingStep s
    | .drive => .fault .planIndexOutOfRange
    | _ => .next s

/-- One move, by whoever's it is (R8, R119). -/
def moveStep (m : Slot) (s : State) : Answer :=
  match m with
  | .engine => engineStep s
  | .host a => hostStep a s
  | .reset => resetStep s

/-- A state whose next engine step issues the port operation `i`, or `s` where `i` is none of the four. -/
def placePort (i : Instr) (s : State) : State :=
  match i with
  | .acquire q => { s with st := .acquiringPin, phase := false, pin := q, owned := false, moves := [] }
  | .setLevel q .low => { s with st := .acquiringPin, phase := true, pin := q, owned := true, moves := [] }
  | .setLevel q .high =>
    { s with st := .transmitting, phase := false, pin := q, owned := true, moves := [], seg := 0, plan := [⟨.high, 1⟩] }
  | .sleep q d => { s with st := .transmitting, phase := true, pin := q, owned := true, moves := [], rem := d }
  | .release q => { s with st := .releasing, phase := true, pin := q, owned := true, moves := [] }
  | _ => s

/-- A state whose next engine step is the ENCODING step of the one-bit code `v`: it runs ENCODE, and SCHEDULE with the
operation the bit selects and SYNC. -/
def placeSymbol (v : BitVec 1) (s : State) : State :=
  { s with
    st := .encoding, phase := false, owned := true, moves := [], abortp := false, ncodes := 1, iterations := 1
    k := 0, bitlen := 1, pulselen := 1, codes := memWrite s.codes 0 (v.setWidth 32) }

/-- The bit pattern placed where the next step takes its operation from: a CMD word is the next host write; a PORT
request is what the engine is about to issue; a SYMBOL is the code word the engine is about to encode. -/
def placeEncoded (e : Encoded) (s : State) : State :=
  match e with
  | .cmd w => { s with moves := .host (.write 0 w) :: s.moves }
  | .symbol v _ => placeSymbol v s
  | .port r =>
    match decodePort r with
    | .ok i => placePort i s
    | .error _ => s

end Sys2Proof.Machine
end

