-- ==== Sys2Proof/Machine/Step.lean ====
section
/-! DEFINITION. One step of the machine, and the fetch of one given operation. -/

namespace Sys2Proof.Machine

/-- One step (R119): the next move of `moves`, or the engine's where none is written down. -/
def step (s : State) : Host.Outcome State Fault Refusal :=
  match s.moves with
  | [] => engineStep s
  | m :: rest => moveStep m { s with moves := rest }

/-- `s` with the operation that the `nbits` bits `w` select placed where the next step takes it from (log 7). -/
def State.withFetchWord (s : State) (nbits w : Nat) : State :=
  match encodedOfTableWord nbits w with
  | some e => placeEncoded e s
  | none => s

end Sys2Proof.Machine
end

