-- ==== Sys2Proof/Safety.lean ====
section
/-! DEFINITION. What counts as a safe state and a safe run of RFPE, in the terms the statements use: the invariant of the
step machine, the port protocol, the observation of a run, and the trace and times the contract asks for. -/

namespace Sys2Proof.Machine

/-- The code list memory is canonical and within the capacity, and so is the number of codes (R13, R14, R30, R34). -/
abbrev CodesInRange (s : State) : Prop :=
  1 ≤ s.maxCodes ∧ Memory.wf s.codes ∧ (∀ x ∈ s.codes, x.1 < s.maxCodes) ∧ s.ncodes.toNat ≤ s.maxCodes

/-- Every code of the configuration has been written since reset (R182 (c)): the host's duty before START. -/
abbrev CodesWritten (s : State) : Prop := ∀ i < s.ncodes.toNat, (memRead s.codes i).isSome

/-- The handle is held exactly in the positions after ACQ (R26, R131), and `PHASE` is 0 in IDLE and ENCODING (R16). -/
abbrev OwnedWhereHeld (s : State) : Prop :=
  (s.owned = true ↔ s.position ≠ .idle ∧ s.position ≠ .acq) ∧ (s.st = .idle ∨ s.st = .encoding → s.phase = false)

/-- The positions of a run before its cleanup. -/
abbrev Position.beforeCleanup (p : Position) : Prop := p ≠ .idle ∧ p ≠ .finalLow ∧ p ≠ .rel

/-- While a run is in progress its configuration is valid, `DONE` is 0, and no error is recorded before the cleanup
(R25, R53, R103, R154). -/
abbrev RunConfigured (s : State) : Prop :=
  (s.st ≠ .idle → paramMask s = 0 ∧ s.done = false) ∧ (s.position.beforeCleanup → s.result = .none)

/-- The bounds of the counters (R18): `k < NCODES` and `r < ITERATIONS` where they are used, and `s < 2*BITLEN + 2`. -/
abbrev CountersInRange (s : State) : Prop :=
  (s.st = .encoding ∨ s.st = .transmitting → s.k.toNat < s.ncodes.toNat) ∧
  (s.st = .transmitting → s.r.toNat < s.iterations.toNat ∧ s.seg.toNat < 2 * s.bitlen.toNat + 2)

/-- While a code is being sent, `PLAN` is its plan (R20, R106). -/
abbrev PlanIsCurrent (s : State) : Prop :=
  s.st = .transmitting → (memRead s.codes s.k.toNat).map (fun c => planOf c s.bitlen s.pulselen) = some s.plan

/-- In a wait, `REM` is at least 1 and at most the segment's duration, and `LEVEL` is the segment's level (R22, R108,
R109). -/
abbrev WaitInRange (s : State) : Prop :=
  s.position = .wait → 1 ≤ s.rem.toNat ∧ (∃ g ∈ s.segment, s.rem ≤ g.duration ∧ s.level = g.level)

/-- The legal values of the result record and of the flags (R28, R29, R32, R151 to R153, R158). -/
abbrev RecordLegal (s : State) : Prop :=
  s.result ≠ .timingInterrupted ∧ (s.badparam ≠ 0 ↔ s.result = .invalidParameter) ∧
  (s.stage = .none ↔ s.result = .none) ∧ (s.result = .aborted → s.cidxv = true) ∧
  (s.cidxv = true → s.stage = .transmit ∧ (s.result = .hardwareUnavailable ∨ s.result = .aborted)) ∧
  (s.cidxv = false → s.erridx = 0) ∧ (s.abortp = true → s.st ≠ .idle)

/-- The invariant of the step machine. -/
structure Inv (s : State) : Prop where
  codes : CodesInRange s
  owned : OwnedWhereHeld s
  configured : RunConfigured s
  counters : CountersInRange s
  plan : PlanIsCurrent s
  wait : WaitInRange s
  record : RecordLegal s

/-- What one transaction does to the holding of the handle, or `none` where the engine may not issue it (R131, R134,
R135): ACQUIRE only while the handle is not held, the others only while it is; a SLEEP asks for at least 1 microsecond
and answers at most what it asks. -/
def heldAfter (held : Bool) : Transaction → Option Bool
  | .acquire _ ok => if held then none else some ok
  | .setLevel _ _ _ => if held then some true else none
  | .sleep _ d rem => if held ∧ 1 ≤ d.toNat ∧ rem ≤ d then some true else none
  | .release _ => if held then some false else none

/-- Whether the handle is held after a trace that begins with it not held, or `none` where the trace breaks the port
protocol. -/
def heldAfterTrace (ts : List Transaction) : Option Bool :=
  ts.foldl (fun h t => h.bind (heldAfter · t)) (some false)

/-- The result of a run as the host learns it (R29, R75). -/
inductive RunResult where
  | inProgress
  | success
  | failure (cause : Cause) (stage : Stage) (badparam : BitVec 4) (codeIndex : Option Word)
deriving DecidableEq, Repr

/-- The result that `DONE` and the record give (R25, R29, R75). -/
def State.runResult (s : State) : RunResult :=
  if s.done then
    if s.result = .none then .success
    else .failure s.result s.stage s.badparam (if s.cidxv then some s.erridx else none)
  else .inProgress

/-- The port trace of the last run (R9): the transactions since the START that began it, and none before the first. -/
def State.runTrace (s : State) : List Transaction := s.trace.drop s.runFrom

/-- The whole trace keeps the protocol, and so does the last run's port trace on its own; `OWNED` says whether the handle
is held after either (R9, R26, R131). -/
abbrev PortProtocol (s : State) : Prop :=
  s.runFrom ≤ s.trace.length ∧ heldAfterTrace s.trace = some s.owned ∧ heldAfterTrace s.runTrace = some s.owned

/-- The observation of a run (R9): its port trace and its result. -/
def State.observe (s : State) : List Transaction × RunResult := (s.runTrace, s.runResult)

/-- The two transactions of one segment, answered favourably (R101). -/
def segmentTrace (pin : Word) (g : Segment) : List Transaction :=
  [.setLevel pin g.level true, .sleep pin g.duration 0]

/-- One plan, sent once with favourable answers (R101, R107). -/
def planTrace (pin : Word) (plan : List Segment) : List Transaction := plan.flatMap (segmentTrace pin)

/-- The port trace of a successful run with no early sleep return (R101). -/
def contractTrace (codes : List Word) (iterations pin pulseLength bitLength : Word) : List Transaction :=
  [.acquire pin true, .setLevel pin .low true] ++
    codes.flatMap (fun c =>
      (List.replicate iterations.toNat (planTrace pin (planOf c bitLength pulseLength))).flatten) ++
    [.setLevel pin .low true, .release pin]

/-- The microseconds a transaction accounts for: those asked for less those answered (R134, R192). -/
def accountedOf : Transaction → Nat
  | .sleep _ d rem => d.toNat - rem.toNat
  | _ => 0

/-- The microseconds a trace accounts for (R190, R192). -/
def accountedTime (ts : List Transaction) : Nat := (ts.map accountedOf).sum

/-- The duration of a plan in microseconds (R97, R191). -/
def planTime (plan : List Segment) : Nat := (plan.map fun g => g.duration.toNat).sum

/-- `n` steps from `s`, stopping at the first fault or refusal. -/
def runFor (n : Nat) (s : State) : Answer := Host.Core.run Sys2Proof.core n s

/-- The configuration registers, the code list and the capacity: what the engine never writes (R11, R116, R34). -/
def State.configuration (s : State) : Word × Word × Word × Word × Word × Memory × Nat :=
  (s.ncodes, s.iterations, s.pin, s.pulselen, s.bitlen, s.codes, s.maxCodes)

/-- The result record (R29). -/
def State.record (s : State) : Cause × Stage × BitVec 4 × Bool × Word :=
  (s.result, s.stage, s.badparam, s.cidxv, s.erridx)

/-- The code list of the configuration: the words `CODE[0 .. NCODES-1]` are `codes` (R14). -/
abbrev CodeList (s : State) (codes : List Word) : Prop :=
  codes.length = s.ncodes.toNat ∧ ∀ i (h : i < codes.length), memRead s.codes i = some codes[i]

end Sys2Proof.Machine
end

