-- ==== Sys2Proof/Certificates/Slice0/Obligations.lean ====
section
/-! DEFINITION. The statements for the provers, from the numbered rules of spec/. A statement about an answer of the
environment holds for every answer: `s.okAnswer` and `s.sleepAnswer d` are the next written answer, or a free value of
Config where none is written, and `s.okAnswerTaken` and `s.sleepAnswerTaken` use it up
(`Obligations.AnswersAreWrittenOrFree`). -/

open Sys2Proof Sys2Proof.Machine

/-! Host commands. -/

/-- START in IDLE (R103): with a valid configuration the engine goes to ACQUIRING_PIN with the last run's record and the
counters cleared; with any operand non-positive, or no code, it stays in IDLE with `DONE` 1 and the record of an
InvalidParameter: the mask of every failing condition, the stage of the lowest. Nothing else changes; the port trace does
not. What the model's own field `runFrom` becomes (log 22) is left to `Obligations.StartBeginsANewObservation`. -/
def Obligations.StartValidatesAllFourOperands : Prop :=
  ∀ s : State, s.st = .idle →
    (s.ncodes ≠ 0 → s.iterations ≠ 0 → s.bitlen ≠ 0 → s.pulselen ≠ 0 →
      ∃ begins : Nat, exec .transmit s = .next { s with
        st := .acquiringPin, phase := false, k := 0, r := 0, seg := 0, rem := 0, done := false, abortp := false
        runFrom := begins, result := .none, stage := .none, badparam := 0, cidxv := false, erridx := 0 }) ∧
    (s.owned = false → (s.ncodes = 0 ∨ s.iterations = 0 ∨ s.bitlen = 0 ∨ s.pulselen = 0) →
      ∃ begins : Nat, exec .transmit s = .next { s with
        st := .idle, phase := false, k := 0, r := 0, seg := 0, rem := 0, done := true, abortp := false
        runFrom := begins, result := .invalidParameter, cidxv := false, erridx := 0
        stage := if s.pulselen = 0 then .schedule else if s.bitlen = 0 then .encode else .transmit
        badparam := BitVec.ofNat 4 ((if s.pulselen = 0 then 1 else 0) + (if s.bitlen = 0 then 2 else 0) +
          (if s.iterations = 0 then 4 else 0) + (if s.ncodes = 0 then 8 else 0)) })

/-- START while a run is in progress is ignored (R102). -/
def Obligations.StartWhileBusyChangesNothing : Prop :=
  ∀ s : State, s.st ≠ .idle → exec .transmit s = .next s

/-- ABORT latches the request while a run is in progress and does nothing else; in IDLE it is ignored (R114). -/
def Obligations.AbortOnlyLatchesTheRequest : Prop :=
  ∀ s : State, (s.st ≠ .idle → exec .abort s = .next { s with abortp := true }) ∧ (s.st = .idle → exec .abort s = .next s)

/-- NOP and the reserved command have no effect and raise no error (R31, R73). -/
def Obligations.NopAndReservedCommandDoNothing : Prop :=
  ∀ s : State, exec .nop s = .next s ∧ exec .cmdReserved s = .next s

/-- The command code is the two low bits of the word written to CMD; the thirty bits above are ignored (R31, R65). -/
def Obligations.CommandWordIgnoresUpperBits : Prop :=
  ∀ x : BitVec 30, decode (.cmd (x ++ 0#2)) = .ok .nop ∧ decode (.cmd (x ++ 1#2)) = .ok .transmit ∧
    decode (.cmd (x ++ 2#2)) = .ok .abort ∧ decode (.cmd (x ++ 3#2)) = .ok .cmdReserved

/-! The Bit Encoder. -/

/-- ENCODE of a code and a bit length `b >= 1` completes with exactly `b` symbols, position `i` being
`floor(code / 2^(b-1-i)) mod 2`; read most significant first they are `code mod 2^b`. It changes nothing but its result
(R81). -/
def Obligations.EncodeYieldsTheBitsMsbFirst : Prop :=
  ∀ (c b : Word) (s : State), b ≠ 0 →
    ∃ vs : List Symbol, exec (.encode c b) s = .next { s with symOut := vs } ∧ vs.length = b.toNat ∧
      (∀ i < b.toNat, vs[i]? = some (decide (c.toNat / 2 ^ (b.toNat - 1 - i) % 2 = 1))) ∧
      vs.foldl (fun n v => 2 * n + v.toNat) 0 = c.toNat % 2 ^ b.toNat

/-- ENCODE of a bit length of 0 returns no sequence and raises InvalidParameter, stage encode (R82, R154, R155): the
record is written if none is there, and the run ends, by the cleanup if the handle is held. That ENCODE run on its own
raises on the machine's own record and position is read from R154 (log 21). -/
def Obligations.EncodeRejectsBitLengthZero : Prop :=
  ∀ (c : Word) (s : State),
    (s.result = .none → s.owned = false →
      exec (.encode c 0) s = .next { s with
        result := .invalidParameter, stage := .encode, badparam := 2, cidxv := false, erridx := 0
        st := .idle, phase := false, done := true, abortp := false }) ∧
    (s.result = .none → s.owned = true →
      exec (.encode c 0) s = .next { s with
        result := .invalidParameter, stage := .encode, badparam := 2, cidxv := false, erridx := 0
        st := .releasing, phase := false }) ∧
    (s.result ≠ .none → s.owned = false →
      exec (.encode c 0) s = .next { s with st := .idle, phase := false, done := true, abortp := false }) ∧
    (s.result ≠ .none → s.owned = true → exec (.encode c 0) s = .next { s with st := .releasing, phase := false })

/-- Bits of a code at the bit length and above do not affect the result, raise nothing, and leave the code list as it is
(R83). -/
def Obligations.EncodeIgnoresBitsAboveTheBitLength : Prop :=
  ∀ (c c' b : Word) (s : State), b ≠ 0 → c.toNat % 2 ^ b.toNat = c'.toNat % 2 ^ b.toNat →
    ∃ vs : List Symbol, exec (.encode c b) s = .next { s with symOut := vs } ∧
      exec (.encode c' b) s = .next { s with symOut := vs }

/-! The Pulse Scheduler. -/

/-- SYMBOL value 0 selects SYM0 and value 1 selects SYM1; no bit pattern selects SYNC. SYM0, SYM1 and SYNC of a pulse length
of at least 1 complete with a HIGH then a LOW segment of exactly 1 and 3, 3 and 1, 1 and 31 pulse lengths, and change
nothing but their result; every SCHEDULE's plan is two segments for each symbol and then, once, what SYNC returns (R92,
R93, R94). -/
def Obligations.SymbolOperationsEmitTheirPatterns : Prop :=
  ∀ (p : Word) (s : State), p ≠ 0 →
    decode (.symbol 0 p) = .ok (.sym0 p) ∧ decode (.symbol 1 p) = .ok (.sym1 p) ∧ encode (.sync p) = none ∧
    (∃ h l : Dur, exec (.sym0 p) s = .next { s with segOut := [⟨.high, h⟩, ⟨.low, l⟩] } ∧
      h.toNat = p.toNat ∧ l.toNat = 3 * p.toNat ∧ h.toNat + l.toNat = 4 * p.toNat) ∧
    (∃ h l : Dur, exec (.sym1 p) s = .next { s with segOut := [⟨.high, h⟩, ⟨.low, l⟩] } ∧
      h.toNat = 3 * p.toNat ∧ l.toNat = p.toNat ∧ h.toNat + l.toNat = 4 * p.toNat) ∧
    (∃ h l : Dur, exec (.sync p) s = .next { s with segOut := [⟨.high, h⟩, ⟨.low, l⟩] } ∧
      h.toNat = p.toNat ∧ l.toNat = 31 * p.toNat ∧ h.toNat + l.toNat = 32 * p.toNat ∧
      ∀ vs : List Symbol, ∃ symbols : List Segment, symbols.length = 2 * vs.length ∧
        exec (.schedule vs p) s = .next { s with segOut := symbols ++ [⟨.high, h⟩, ⟨.low, l⟩] })

/-- SYM0, SYM1 and SYNC of a pulse length of 0, which R92 to R94 leave out (their operand is at least 1), run by their
formulas: each completes with a HIGH then a LOW segment of 0 microseconds and changes nothing but its result. This is the
model's reading (log 13); the SYMBOL bit selects the operation as ever (R63). -/
def Obligations.SymbolOperationsOfPulseLengthZeroRunByTheirFormulas : Prop :=
  ∀ s : State,
    decode (.symbol 0 0) = .ok (.sym0 0) ∧ decode (.symbol 1 0) = .ok (.sym1 0) ∧ encode (.sync 0) = none ∧
    exec (.sym0 0) s = .next { s with segOut := [⟨.high, 0⟩, ⟨.low, 0⟩] } ∧
    exec (.sym1 0) s = .next { s with segOut := [⟨.high, 0⟩, ⟨.low, 0⟩] } ∧
    exec (.sync 0) s = .next { s with segOut := [⟨.high, 0⟩, ⟨.low, 0⟩] }

/-- SCHEDULE of a pulse length that is not 0 completes: its plan is the segments that the operation each symbol selects
returns, in input order, then those SYNC returns, and nothing else (R91). -/
def Obligations.ScheduleIsTheSymbolsInOrderThenSync : Prop :=
  ∀ (vs : List Symbol) (p : Word) (s : State), p ≠ 0 →
    ∃ (parts : List (List Segment)) (footer : List Segment),
      exec (.schedule vs p) s = .next { s with segOut := parts.flatten ++ footer } ∧
      exec (.sync p) s = .next { s with segOut := footer } ∧ parts.length = vs.length ∧
      ∀ (i : Nat) (v : Symbol), vs[i]? = some v →
        ∃ part, parts[i]? = some part ∧ decode (.symbol (BitVec.ofBool v) p) = .ok (if v then .sym1 p else .sym0 p) ∧
          exec (if v then .sym1 p else .sym0 p) s = .next { s with segOut := part }

/-- SCHEDULE of a pulse length of 0 raises InvalidParameter, stage schedule, whatever the symbols, and returns no plan
(R96, R154, R155). That it raises on the machine's own record and position is read from R154 (log 21). -/
def Obligations.ScheduleRejectsPulseLengthZero : Prop :=
  ∀ (vs : List Symbol) (s : State),
    (s.result = .none → s.owned = false →
      exec (.schedule vs 0) s = .next { s with
        result := .invalidParameter, stage := .schedule, badparam := 1, cidxv := false, erridx := 0
        st := .idle, phase := false, done := true, abortp := false }) ∧
    (s.result = .none → s.owned = true →
      exec (.schedule vs 0) s = .next { s with
        result := .invalidParameter, stage := .schedule, badparam := 1, cidxv := false, erridx := 0
        st := .releasing, phase := false }) ∧
    (s.result ≠ .none → s.owned = false →
      exec (.schedule vs 0) s = .next { s with st := .idle, phase := false, done := true, abortp := false }) ∧
    (s.result ≠ .none → s.owned = true → exec (.schedule vs 0) s = .next { s with st := .releasing, phase := false })

/-- The closed form of a plan entry (R95), of the plan that SCHEDULE returns for what ENCODE returns. -/
def Obligations.PlanEntriesHaveTheClosedForm : Prop :=
  ∀ (c b p : Word) (s : State), b ≠ 0 → p ≠ 0 →
    ∃ (vs : List Symbol) (plan : List Segment),
      exec (.encode c b) s = .next { s with symOut := vs } ∧
      exec (.schedule vs p) s = .next { s with segOut := plan } ∧
      (∀ i < b.toNat, ∃ h l : Dur, plan[2 * i]? = some ⟨.high, h⟩ ∧ plan[2 * i + 1]? = some ⟨.low, l⟩ ∧
        h.toNat = (if c.toNat / 2 ^ (b.toNat - 1 - i) % 2 = 1 then 3 else 1) * p.toNat ∧
        l.toNat = (if c.toNat / 2 ^ (b.toNat - 1 - i) % 2 = 1 then 1 else 3) * p.toNat) ∧
      (∃ h l : Dur, plan[2 * b.toNat]? = some ⟨.high, h⟩ ∧ plan[2 * b.toNat + 1]? = some ⟨.low, l⟩ ∧
        h.toNat = p.toNat ∧ l.toNat = 31 * p.toNat) ∧
      plan[2 * b.toNat + 2]? = none

/-- The properties of every plan (R97): its length, the sum of every pair and of the footer, its total duration, no
segment shorter than the pulse length, and levels that alternate from HIGH to LOW. -/
def Obligations.PlansHaveTheTestableProperties : Prop :=
  ∀ (vs : List Symbol) (p : Word) (s : State), p ≠ 0 →
    ∃ plan : List Segment, exec (.schedule vs p) s = .next { s with segOut := plan } ∧
      plan.length = 2 * vs.length + 2 ∧
      (∀ i ≤ vs.length, ∃ h l : Segment, plan[2 * i]? = some h ∧ plan[2 * i + 1]? = some l ∧
        h.level = .high ∧ l.level = .low ∧
        h.duration.toNat + l.duration.toNat = (if i = vs.length then 32 else 4) * p.toNat) ∧
      planTime plan = (4 * vs.length + 32) * p.toNat ∧
      ∀ g ∈ plan, p.toNat ≤ g.duration.toNat ∧ 1 ≤ g.duration.toNat

/-! The environment's answers. -/

/-- An answer is the next written one, which is used up; where none is written it is a free value of Config, for SLEEP
one of at most the request, and the counter of free values advances. This form of the oracle is the model's own (log 4,
log 5). -/
def Obligations.AnswersAreWrittenOrFree : Prop :=
  ∀ (s : State) (d : Dur),
    (∀ a rest, s.okAnswers = a :: rest → s.okAnswer = a ∧ s.okAnswerTaken = { s with okAnswers := rest }) ∧
    (s.okAnswers = [] → s.okAnswer = Config.portAnswer s.draws ∧ s.okAnswerTaken = { s with draws := s.draws + 1 }) ∧
    (∀ a rest, s.sleepAnswers = a :: rest →
      s.sleepAnswer d = a ∧ s.sleepAnswerTaken = { s with sleepAnswers := rest }) ∧
    (s.sleepAnswers = [] → s.sleepAnswer d ≤ d ∧
      (Config.sleepAnswer s.draws ≤ d → s.sleepAnswer d = Config.sleepAnswer s.draws) ∧
      s.sleepAnswerTaken = { s with draws := s.draws + 1 })

/-- A written answer to SLEEP above the request is refused; every other answer is accepted (R135). That an answer is
written in the state, or a free value where none is, is the model's choice (log 4, log 5). -/
def Obligations.SleepRefusesOnlyAnswersAboveTheRequest : Prop :=
  ∀ (q : Word) (d : Dur) (s : State),
    (d < s.sleepAnswer d → exec (.sleep q d) s = .refused .sleepAnswerTooLong) ∧
    (s.sleepAnswer d ≤ d → ∃ t, exec (.sleep q d) s = .next t) ∧
    (s.sleepAnswers = [] → ∃ t, exec (.sleep q d) s = .next t)

/-! The engine's steps. -/

/-- Step ACQ (R104): `ok` takes the handle and leads to INIT_LOW; `fail` ends the run in IDLE with HardwareUnavailable,
stage acquire, and no further transaction. -/
def Obligations.AcquireStepTakesTheHandleOrEndsTheRun : Prop :=
  ∀ s : State, s.moves = [] → s.st = .acquiringPin → s.phase = false → s.owned = false → s.result = .none →
    step s = exec (.acquire s.pin) s ∧
    (s.okAnswer = true →
      exec (.acquire s.pin) s = .next { s.okAnswerTaken with
        trace := s.trace ++ [.acquire s.pin true], owned := true, phase := true }) ∧
    (s.okAnswer = false →
      exec (.acquire s.pin) s = .next { s.okAnswerTaken with
        trace := s.trace ++ [.acquire s.pin false], st := .idle, phase := false, done := true, abortp := false
        result := .hardwareUnavailable, stage := .acquire, badparam := 0, cidxv := false, erridx := 0 })

/-- Step INIT_LOW (R105): `ok` sets the level LOW and leads to ENCODING of code 0; `fail` leads to the cleanup with
HardwareUnavailable, stage acquire, no code index. -/
def Obligations.InitLowStepLeadsToEncodingOrCleanup : Prop :=
  ∀ s : State, s.moves = [] → s.st = .acquiringPin → s.phase = true → s.owned = true → s.result = .none →
    step s = exec (.setLevel s.pin .low) s ∧
    (s.okAnswer = true →
      exec (.setLevel s.pin .low) s = .next { s.okAnswerTaken with
        trace := s.trace ++ [.setLevel s.pin .low true], level := .low, k := 0, st := .encoding, phase := false }) ∧
    (s.okAnswer = false →
      exec (.setLevel s.pin .low) s = .next { s.okAnswerTaken with
        trace := s.trace ++ [.setLevel s.pin .low false], st := .releasing, phase := false
        result := .hardwareUnavailable, stage := .acquire, badparam := 0, cidxv := false, erridx := 0 })

/-- Step ENCODING (R106): a pending abort leads to the cleanup with Aborted and the index of the code not sent;
otherwise the plan that SCHEDULE returns for what ENCODE returns for `CODE[k]` is taken, `r` and `s` are 0, and the
engine goes to TRANSMITTING, with no port transaction. Where `CODE[k]` was never written since reset it has no value
(R33), and the step faults, as R33 and U10 say of a model (log 10). -/
def Obligations.EncodingStepAbortsOrTakesThePlan : Prop :=
  ∀ s : State, s.moves = [] → s.st = .encoding → s.owned = true → s.result = .none →
    (s.abortp = true →
      step s = .next { s with
        st := .releasing, phase := false, result := .aborted, stage := .transmit, badparam := 0, cidxv := true
        erridx := s.k }) ∧
    (∀ c, s.abortp = false → memRead s.codes s.k.toNat = some c → s.bitlen ≠ 0 → s.pulselen ≠ 0 →
      ∃ vs plan, exec (.encode c s.bitlen) s = .next { s with symOut := vs } ∧
        exec (.schedule vs s.pulselen) { s with symOut := vs } = .next { s with symOut := vs, segOut := plan } ∧
        step s = .next { s with
          plan := plan, symOut := [], segOut := [], r := 0, seg := 0, st := .transmitting, phase := false }) ∧
    (s.abortp = false → memRead s.codes s.k.toNat = none → step s = .fault .codeUnwritten)

/-- Step DRIVE (R108): SETLEVEL of the segment's level; `ok` loads `REM` with the segment's duration and leads to WAIT;
`fail` leads to the cleanup with HardwareUnavailable, stage transmit, code index `k`. -/
def Obligations.DriveStepSetsTheSegmentLevel : Prop :=
  ∀ (s : State) (g : Segment), s.moves = [] → s.st = .transmitting → s.phase = false → s.owned = true →
    s.result = .none → s.plan[s.seg.toNat]? = some g →
    step s = exec (.setLevel s.pin g.level) s ∧
    (s.okAnswer = true →
      exec (.setLevel s.pin g.level) s = .next { s.okAnswerTaken with
        trace := s.trace ++ [.setLevel s.pin g.level true], level := g.level, rem := g.duration, phase := true }) ∧
    (s.okAnswer = false →
      exec (.setLevel s.pin g.level) s = .next { s.okAnswerTaken with
        trace := s.trace ++ [.setLevel s.pin g.level false], st := .releasing, phase := false
        result := .hardwareUnavailable, stage := .transmit, badparam := 0, cidxv := true, erridx := s.k })

/-- Step WAIT (R109): SLEEP of `REM`; an answer above 0 becomes `REM` and the step is taken again; the answer 0 leads
to the next segment, else the next repeat, else the next code, else the release. -/
def Obligations.WaitStepSleepsUntilNothingRemains : Prop :=
  ∀ s : State, s.moves = [] → s.st = .transmitting → s.phase = true → s.sleepAnswer s.rem ≤ s.rem →
    let u : State := { s.sleepAnswerTaken with trace := s.trace ++ [.sleep s.pin s.rem (s.sleepAnswer s.rem)] }
    step s = exec (.sleep s.pin s.rem) s ∧
    exec (.sleep s.pin s.rem) s = .next
      (if s.sleepAnswer s.rem ≠ 0 then { u with rem := s.sleepAnswer s.rem }
      else if (s.seg.toNat : Int) < 2 * s.bitlen.toNat + 1 then { u with rem := 0, seg := s.seg + 1, phase := false }
      else if (s.r.toNat : Int) < (s.iterations.toNat : Int) - 1 then
        { u with rem := 0, seg := 0, r := s.r + 1, phase := false }
      else if (s.k.toNat : Int) < (s.ncodes.toNat : Int) - 1 then
        { u with rem := 0, seg := 0, r := 0, k := s.k + 1, st := .encoding, phase := false }
      else { u with rem := 0, seg := 0, r := 0, st := .releasing, phase := false })

/-- Step FINAL_LOW (R110): SETLEVEL LOW; either answer leads to REL; `fail` records HardwareUnavailable, stage
transmit, no code index, if no error is recorded. -/
def Obligations.FinalLowStepAlwaysLeadsToRelease : Prop :=
  ∀ s : State, s.moves = [] → s.st = .releasing → s.phase = false →
    step s = exec (.setLevel s.pin .low) s ∧
    (s.okAnswer = true →
      exec (.setLevel s.pin .low) s = .next { s.okAnswerTaken with
        trace := s.trace ++ [.setLevel s.pin .low true], level := .low, phase := true }) ∧
    (s.okAnswer = false → s.result = .none →
      exec (.setLevel s.pin .low) s = .next { s.okAnswerTaken with
        trace := s.trace ++ [.setLevel s.pin .low false], phase := true
        result := .hardwareUnavailable, stage := .transmit, badparam := 0, cidxv := false, erridx := 0 }) ∧
    (s.okAnswer = false → s.result ≠ .none →
      exec (.setLevel s.pin .low) s = .next { s.okAnswerTaken with
        trace := s.trace ++ [.setLevel s.pin .low false], phase := true })

/-- Step REL (R111): RELEASE; the handle is given up, the abort request dropped, `DONE` set, IDLE. -/
def Obligations.ReleaseStepEndsTheRun : Prop :=
  ∀ s : State, s.moves = [] → s.st = .releasing → s.phase = true →
    step s = exec (.release s.pin) s ∧
    exec (.release s.pin) s = .next { s with
      trace := s.trace ++ [.release s.pin], owned := false, abortp := false, done := true, st := .idle, phase := false }

/-- In IDLE the engine takes no step and issues no transaction; the record and `DONE` keep their values (R112). -/
def Obligations.IdleEngineChangesNothing : Prop :=
  ∀ s : State, s.moves = [] → s.st = .idle → step s = .next s

/-- What the four port operations do in every position and with every operand: each completes (SETLEVEL if at DRIVE
there is a segment, SLEEP if the answer is at most the request), appends its one transaction with the pin, the argument
and the answer, and leaves the configuration, the plan and the host's moves as they were; SETLEVEL and SLEEP leave
`OWNED`, and the others leave `LEVEL` (R26, R27, R130). What they do at a position that does not issue them is the
model's choice (log 11). -/
def Obligations.PortOperationsLogOneTransaction : Prop :=
  ∀ (s : State) (q : Word) (lv : Level) (d : Dur),
    (∃ t, exec (.acquire q) s = .next t ∧ t.trace = s.trace ++ [.acquire q s.okAnswer] ∧
      t.configuration = s.configuration ∧ t.plan = s.plan ∧ t.moves = s.moves ∧ t.level = s.level ∧
      t.owned = (s.okAnswer || s.owned)) ∧
    (∃ t, exec (.release q) s = .next t ∧ t.trace = s.trace ++ [.release q] ∧
      t.configuration = s.configuration ∧ t.plan = s.plan ∧ t.moves = s.moves ∧ t.level = s.level ∧
      t.record = s.record ∧ t.owned = false) ∧
    (¬ (s.st = .transmitting ∧ s.phase = false ∧ s.plan[s.seg.toNat]? = none) →
      ∃ t, exec (.setLevel q lv) s = .next t ∧ t.trace = s.trace ++ [.setLevel q lv s.okAnswer] ∧
        t.configuration = s.configuration ∧ t.plan = s.plan ∧ t.moves = s.moves ∧
        t.level = (if s.okAnswer then lv else s.level) ∧ t.owned = s.owned) ∧
    (s.sleepAnswer d ≤ d →
      ∃ t, exec (.sleep q d) s = .next t ∧ t.trace = s.trace ++ [.sleep q d (s.sleepAnswer d)] ∧
        t.configuration = s.configuration ∧ t.plan = s.plan ∧ t.moves = s.moves ∧ t.level = s.level ∧
        t.owned = s.owned ∧ t.record = s.record)

/-! Raising an error. -/

/-- `raise E(info)` (R154): the record is written only if none is there; then the cleanup if the handle is held, else
IDLE with `DONE` 1 and no transaction; `k`, `r`, `s`, `REM` and `PLAN` keep their values. -/
def Obligations.RaiseRecordsTheFirstErrorAndEndsTheRun : Prop :=
  ∀ (s : State) (e : ErrorInfo),
    let u := if s.result = .none then
        { s with
          result := e.cause, stage := e.stage, badparam := e.badparam, cidxv := e.codeIndex.isSome
          erridx := match e.codeIndex with
            | some i => i
            | none => 0 }
      else s
    (s.owned = true → s.raise e = { u with st := .releasing, phase := false }) ∧
    (s.owned = false → s.raise e = { u with st := .idle, phase := false, done := true, abortp := false })

/-! The register space. -/

/-- The fields of the STATUS word (R32): each stands in its bits, the bits above are 0; a read of STATUS changes
nothing but what the host has read, and writes to it are ignored. -/
def Obligations.StatusWordHoldsTheFields : Prop :=
  ∀ s : State,
    let w := statusWord s
    (w.extractLsb' 0 3).toNat = (match s.st with
      | .idle => 0 | .acquiringPin => 1 | .encoding => 2 | .transmitting => 3 | .releasing => 4) ∧
    w.getLsbD 3 = s.phase ∧ w.getLsbD 4 = decide (s.st ≠ .idle) ∧ w.getLsbD 5 = s.done ∧ w.getLsbD 6 = s.owned ∧
    w.getLsbD 7 = decide (s.level = .high) ∧
    (w.extractLsb' 8 3).toNat = (match s.result with
      | .none => 0 | .invalidParameter => 1 | .hardwareUnavailable => 2 | .timingInterrupted => 3 | .aborted => 4) ∧
    (w.extractLsb' 11 3).toNat = (match s.stage with
      | .none => 0 | .encode => 1 | .schedule => 2 | .acquire => 3 | .transmit => 4) ∧
    w.extractLsb' 14 4 = s.badparam ∧ w.getLsbD 18 = s.cidxv ∧ w.getLsbD 19 = s.abortp ∧
    w.toNat < 2 ^ 20 ∧
    hostStep (.read 1) s = .next { s with rdata := w } ∧ ∀ v, hostStep (.write 1 v) s = .next s

/-- What a host read returns at every index (R30, R33): CMD and the reserved and absent indices 0, STATUS its word,
ERRIDX 0 while it is not valid, the operand registers and the written codes their words; a code not written since reset
has no value, and its read faults, as R33 and U10 say of a model (log 10). A read changes nothing but what the host has
read, which stands in a field of the model (log 9). -/
def Obligations.HostReadsFollowTheRegisterMap : Prop :=
  ∀ s : State,
    (∀ i, (i = 0 ∨ (8 ≤ i ∧ i ≤ 15) ∨ 15 + s.maxCodes < i) → hostStep (.read i) s = .next { s with rdata := 0 }) ∧
    hostStep (.read 1) s = .next { s with rdata := statusWord s } ∧
    hostStep (.read 2) s = .next { s with rdata := if s.cidxv then s.erridx else 0 } ∧
    hostStep (.read 3) s = .next { s with rdata := s.ncodes } ∧
    hostStep (.read 4) s = .next { s with rdata := s.iterations } ∧
    hostStep (.read 5) s = .next { s with rdata := s.pin } ∧
    hostStep (.read 6) s = .next { s with rdata := s.pulselen } ∧
    hostStep (.read 7) s = .next { s with rdata := s.bitlen } ∧
    (∀ i w, i < s.maxCodes → memRead s.codes i = some w → hostStep (.read (16 + i)) s = .next { s with rdata := w }) ∧
    (∀ i, i < s.maxCodes → memRead s.codes i = none → hostStep (.read (16 + i)) s = .fault .codeUnwritten)

/-- A host write in IDLE to an operand register or a code word is what a later read returns, and every other index reads
as before; the configuration aside, the whole state is as before, and so is every code word but the one written (R11, R13,
R14, R30). A number of codes above the capacity, and a write to STATUS, ERRIDX or a reserved or absent index, is ignored. -/
def Obligations.HostWritesInIdleAreReadBack : Prop :=
  ∀ (s : State) (i : Nat) (v : Word), s.st = .idle →
    ((i = 3 ∧ v.toNat ≤ s.maxCodes) ∨ (4 ≤ i ∧ i ≤ 7) ∨ (16 ≤ i ∧ i < 16 + s.maxCodes) →
      ∃ t, hostStep (.write i v) s = .next t ∧ regRead t i = some v ∧ (∀ j, j ≠ i → regRead t j = regRead s j) ∧
        (∀ j, 16 + j ≠ i → memRead t.codes j = memRead s.codes j) ∧
        t = { s with
          ncodes := t.ncodes, iterations := t.iterations, pin := t.pin, pulselen := t.pulselen, bitlen := t.bitlen
          codes := t.codes }) ∧
    ((i = 3 ∧ s.maxCodes < v.toNat) ∨ i = 1 ∨ i = 2 ∨ (8 ≤ i ∧ i ≤ 15) ∨ 15 + s.maxCodes < i →
      hostStep (.write i v) s = .next s)

/-- Host writes to anything but CMD while a run is in progress are lost (R13, R184). -/
def Obligations.HostWritesWhileBusyAreLost : Prop :=
  ∀ (s : State) (i : Nat) (v : Word) (rest : List Slot), s.st ≠ .idle → i ≠ 0 → s.moves = .host (.write i v) :: rest →
    step s = .next { s with moves := rest }

/-- The writes that `transmit(codes, iterations, pin, pulseLength, bitLength)` expands to (R75), run one after another
from IDLE, load the configuration and then run START on it. -/
def Obligations.TransmitWritesLoadTheConfigurationAndStart : Prop :=
  ∀ (s : State) (codes : List Word) (iterations pin pulseLength bitLength : Word) (rest : List Slot),
    s.st = .idle → codes.length ≤ s.maxCodes → codes.length < 2 ^ 32 →
    s.moves = (transmitWrites codes iterations pin pulseLength bitLength).map .host ++ rest →
    ∃ m : Memory,
      (∀ i (h : i < codes.length), memRead m i = some codes[i]) ∧
      (∀ i, codes.length ≤ i → memRead m i = memRead s.codes i) ∧
      runFor (codes.length + 6) s = exec .transmit { s with
        ncodes := BitVec.ofNat 32 codes.length, iterations := iterations, pin := pin, pulselen := pulseLength
        bitlen := bitLength, codes := m, moves := rest }

/-! What a step runs. -/

/-- A host write to CMD runs the operation its word decodes to, at once, on the state without that move (R31, R46). -/
def Obligations.CommandWriteRunsTheDecodedOperation : Prop :=
  ∀ (s : State) (w : Word) (i : Instr) (rest : List Slot), s.moves = .host (.write 0 w) :: rest →
    decode (.cmd w) = .ok i → step s = exec i { s with moves := rest }

/-- The engine's step runs the port operation that the position issues, with `PIN`, the segment's level or `REM`; the
request's bits decode to that operation; in ENCODING and IDLE no port operation is issued (R104 to R112, R131). -/
def Obligations.EngineStepRunsTheIssuedOperation : Prop :=
  ∀ s : State,
    (∀ i, portOperation s = some i →
      (s.moves = [] → step s = exec i s) ∧
      (∀ rest, s.moves = .engine :: rest → step s = exec i { s with moves := rest }) ∧
      ∃ e, encode i = some e ∧ decode e = .ok i) ∧
    (s.st = .idle ∨ s.st = .encoding → portOperation s = none) ∧
    (s.st = .acquiringPin → s.phase = false → portOperation s = some (.acquire s.pin)) ∧
    (s.st = .acquiringPin → s.phase = true → portOperation s = some (.setLevel s.pin .low)) ∧
    (∀ g, s.st = .transmitting → s.phase = false → s.plan[s.seg.toNat]? = some g →
      portOperation s = some (.setLevel s.pin g.level)) ∧
    (s.st = .transmitting → s.phase = true → portOperation s = some (.sleep s.pin s.rem)) ∧
    (s.st = .releasing → s.phase = false → portOperation s = some (.setLevel s.pin .low)) ∧
    (s.st = .releasing → s.phase = true → portOperation s = some (.release s.pin))

/-- What `State.withFetchWord` places is what the next step runs (the host's interface; log 7): a CMD word's operation on
the state itself; a PORT request's operation, on a state that issues just that; a SYMBOL bit as a one-bit code, whose
plan is the segments of the operation the bit selects, then those of SYNC. -/
def Obligations.PlacedWordsAreWhatTheNextStepRuns : Prop :=
  ∀ s : State,
    (∀ w : Nat, step (s.withFetchWord 32 w) = exec (decodeCmd (BitVec.ofNat 32 w)) s) ∧
    (∀ (r : BitVec 71) (i : Instr), decode (.port r) = .ok i →
      step (s.withFetchWord 72 r.toNat) = exec i (s.withFetchWord 72 r.toNat) ∧
      portOperation (s.withFetchWord 72 r.toNat) = some i) ∧
    (∀ (v : BitVec 1) (i : Instr), decode (.symbol v 1) = .ok i →
      ∃ (t : State) (part footer : List Segment), step (s.withFetchWord 1 v.toNat) = .next t ∧
        exec i s = .next { s with segOut := part } ∧ exec (.sync 1) s = .next { s with segOut := footer } ∧
        t.plan = part ++ footer)

/-- Words of the three formats written out bit by bit decode to the operation they stand for (R63, R65, R67): START with
every ignored bit of the word set but three, SYM1 with p = 190, SETLEVEL(17, HIGH), SLEEP(5890), ACQUIRE(17) and
RELEASE(17). The places of a PORT request's fields are the model's choice (log 6). -/
def Obligations.WrittenOutWordsDecodeRight : Prop :=
  decode (.cmd 0b11111111111111111111111111110001#32) = .ok .transmit ∧
  decode (.symbol 0b1#1 190) = .ok (.sym1 190) ∧
  decode (.port (0b0000000000000000000000000000000000001#37 ++ 0b00000000000000000000000000010001#32 ++ 0b00#2)) =
    .ok (.setLevel 17 .high) ∧
  decode (.port (0b0000000000000000000000001011100000010#37 ++ 0b00000000000000000000000000010001#32 ++ 0b01#2)) =
    .ok (.sleep 17 5890) ∧
  decode (.port (0b0000000000000000000000000000000000000#37 ++ 0b00000000000000000000000000010001#32 ++ 0b10#2)) =
    .ok (.acquire 17) ∧
  decode (.port (0b0000000000000000000000000000000000000#37 ++ 0b00000000000000000000000000010001#32 ++ 0b11#2)) =
    .ok (.release 17)

/-- Every operation that a bit pattern selects decodes from its pattern to itself, with every operand; the three that no
bit pattern selects, ENCODE, SCHEDULE and SYNC, have none (R66). The places of a PORT request's fields are the model's
choice (log 6). -/
def Obligations.EncodedOperationsDecodeToThemselves : Prop :=
  ∀ i : Instr, i.wellFormed = true →
    (∃ e, encode i = some e ∧ decode e = .ok i) ∨
    (encode i = none ∧ ((∃ c b, i = .encode c b) ∨ (∃ vs p, i = .schedule vs p) ∨ ∃ p, i = .sync p))

/-- A PORT request has one meaning: two requests that decode to the same SETLEVEL or SLEEP are equal, and two that
decode to the same ACQUIRE or RELEASE differ in the unused `arg` at most (R67). The places of the fields, and that a
SETLEVEL request whose `arg` is above 1 is no operation, are the model's choice (log 6). -/
def Obligations.PortRequestsHaveOneMeaning : Prop :=
  ∀ (x y : BitVec 71) (i : Instr), decode (.port x) = .ok i → decode (.port y) = .ok i →
    ((∃ q lv, i = .setLevel q lv) ∨ (∃ q d, i = .sleep q d) → x = y) ∧
    ((∃ q, i = .acquire q) ∨ (∃ q, i = .release q) → x.extractLsb' 0 34 = y.extractLsb' 0 34)

/-! Reset. -/

/-- The state after reset (R33): IDLE, everything the spec gives a value at that value; a START then fails with
InvalidParameter, the mask 1111 and stage schedule, with STATUS 0x0003D120 and no port transaction. -/
def Obligations.ResetLeavesAnUnconfiguredIdleMachine : Prop :=
  State.reset.st = .idle ∧ State.reset.phase = false ∧ State.reset.k = 0 ∧ State.reset.r = 0 ∧ State.reset.seg = 0 ∧
  State.reset.rem = 0 ∧ State.reset.ncodes = 0 ∧ State.reset.iterations = 0 ∧ State.reset.pin = 0 ∧
  State.reset.pulselen = 0 ∧ State.reset.bitlen = 0 ∧ State.reset.busy = false ∧ State.reset.done = false ∧
  State.reset.owned = false ∧ State.reset.abortp = false ∧ State.reset.level = .low ∧ State.reset.result = .none ∧
  State.reset.stage = .none ∧ State.reset.badparam = 0 ∧ State.reset.cidxv = false ∧ State.reset.erridx = 0 ∧
  State.reset.trace = [] ∧
  ∃ t, exec .transmit State.reset = .next t ∧ statusWord t = 0x0003D120 ∧ t.trace = []

/-- A reset while a run is in progress is refused; a reset in IDLE puts every piece of the spec's state at its value
after reset and issues no transaction, and no run has begun since (R180, R181). That a reset is a move at all is the
model's choice (log 12, log 22). -/
def Obligations.ResetIsRefusedDuringARun : Prop :=
  ∀ (s : State) (rest : List Slot), s.moves = .reset :: rest →
    (s.st ≠ .idle → step s = .refused .resetDuringRun) ∧
    (s.st = .idle → step s = .next { State.reset with
      maxCodes := s.maxCodes, moves := rest, okAnswers := s.okAnswers, sleepAnswers := s.sleepAnswers
      draws := s.draws, trace := s.trace, runFrom := s.trace.length, rdata := s.rdata })

/-! Every step. -/

/-- Each step issues at most one port transaction: the trace stays or gains one (R48, R119). -/
def Obligations.EachStepIssuesAtMostOneTransaction : Prop :=
  ∀ s t : State, step s = .next t → t.trace = s.trace ∨ ∃ x, t.trace = s.trace ++ [x]

/-- The engine never writes the operand registers, the code list or the capacity (R11, R34, R116). -/
def Obligations.EngineNeverWritesTheConfiguration : Prop :=
  ∀ s t : State, engineStep s = .next t → t.configuration = s.configuration

/-- No operation, register write or environment answer changes the parameter that the state holds (R34). That the
capacity stands in the state is the model's choice (log 2). -/
def Obligations.NoStepChangesTheCapacity : Prop :=
  ∀ s t : State, step s = .next t → t.maxCodes = s.maxCodes

/-- The counters advance only in the WAIT step: elsewhere the engine leaves them, but for INIT_LOW, which may put `k` at
0, and ENCODING, which may put `r` and `s` at 0 (R18, R105, R106). -/
def Obligations.CountersAdvanceOnlyInWait : Prop :=
  ∀ s t : State, engineStep s = .next t → ¬ (s.st = .transmitting ∧ s.phase = true) →
    (t.k = s.k ∨ (s.st = .acquiringPin ∧ s.phase = true ∧ t.k = 0)) ∧
    (t.r = s.r ∨ (s.st = .encoding ∧ t.r = 0)) ∧ (t.seg = s.seg ∨ (s.st = .encoding ∧ t.seg = 0))

/-- The level is recorded and never read to decide anything: two states that differ in `LEVEL` only take engine steps
to states that differ in `LEVEL` at most (R27). -/
def Obligations.LevelDecidesNothing : Prop :=
  ∀ (s t : State) (lv : Level), engineStep s = .next t →
    ∃ u, engineStep { s with level := lv } = .next u ∧ { u with level := t.level } = t

/-- The abort request is read by the ENCODING step only: two states at another position that differ in `ABORTP` only
take engine steps to states that differ in `ABORTP` at most (R28). -/
def Obligations.AbortRequestIsReadOnlyInEncoding : Prop :=
  ∀ (s t : State) (b : Bool), s.st ≠ .encoding → engineStep s = .next t →
    ∃ u, engineStep { s with abortp := b } = .next u ∧ { u with abortp := t.abortp } = t

/-- The code entries at and above `NCODES` are never read by the engine: two states that differ in those only take
engine steps to states that differ in those only (R14). -/
def Obligations.CodesAboveTheCountAreNeverRead : Prop :=
  ∀ (s t : State) (m : Memory), Inv s → (∀ i < s.ncodes.toNat, memRead m i = memRead s.codes i) →
    engineStep s = .next t → engineStep { s with codes := m } = .next { t with codes := m }

/-- In IDLE the record and `DONE` keep their values through every step but an accepted START and a reset (R25, R29,
R112). -/
def Obligations.RecordOutlivesTheRun : Prop :=
  ∀ s t : State, s.st = .idle → step s = .next t →
    (∀ w rest, s.moves = .host (.write 0 w) :: rest → decode (.cmd w) ≠ .ok .transmit) →
    (∀ rest, s.moves ≠ .reset :: rest) → t.record = s.record ∧ t.done = s.done ∧ t.st = .idle

/-- While a run is in progress the first error recorded wins: no step changes a record that is there (R29, R154,
R161). -/
def Obligations.FirstErrorOfARunWins : Prop :=
  ∀ s t : State, s.st ≠ .idle → s.result ≠ .none → step s = .next t → t.record = s.record

/-- The cleanup always ends the run: from FINAL_LOW, whatever the environment answers, two steps issue SETLEVEL LOW and
RELEASE and end in IDLE with `DONE` 1, the handle given up, no abort pending and the record of the first error kept
(R110, R111, R162). -/
def Obligations.CleanupAlwaysEndsInIdle : Prop :=
  ∀ s : State, s.moves = [] → s.st = .releasing → s.phase = false →
    ∃ (t : State) (ok : Bool), runFor 2 s = .next t ∧
      t.trace = s.trace ++ [.setLevel s.pin .low ok, .release s.pin] ∧
      t.st = .idle ∧ t.phase = false ∧ t.done = true ∧ t.owned = false ∧ t.abortp = false ∧
      t.configuration = s.configuration ∧
      (s.result ≠ .none ∨ ok = true → t.record = s.record) ∧
      (s.result = .none → ok = false → t.record = (.hardwareUnavailable, .transmit, 0, false, 0)) ∧
      t.level = (if ok then .low else s.level)

/-! The invariant and the port protocol. -/

/-- Every step keeps the invariant of the step machine. -/
def Obligations.StepKeepsTheMachineInvariant : Prop :=
  ∀ s t : State, Inv s → step s = .next t → Inv t

/-- Every step keeps the port protocol: ACQUIRE is issued only while the handle is not held, SETLEVEL, SLEEP and RELEASE
only while it is, no SLEEP of 0 microseconds, and `OWNED` says whether it is held; the last run's port trace keeps it on
its own (R9, R26, R131, R134, R135; that it is cut out of the whole trace by a field is the model's choice, log 22). -/
def Obligations.StepKeepsThePortProtocol : Prop :=
  ∀ s t : State, Inv s → PortProtocol s → step s = .next t → PortProtocol t

/-- The state after reset meets the invariant and the port protocol. -/
def Obligations.ResetMeetsInvariantAndProtocol : Prop :=
  Inv State.reset ∧ PortProtocol State.reset

/-- In a state of the invariant whose codes are all written, no step faults, but for a host read of a code that was
never written; the engine's accesses are always in range (R44, R182). That such a read faults follows R33 and
U10 (log 10). -/
def Obligations.ConfiguredMachineNeverFaults : Prop :=
  ∀ (s : State) (e : Fault), Inv s → CodesWritten s → step s = .fault e →
    e = .codeUnwritten ∧ ∃ i rest, s.moves = .host (.read (16 + i)) :: rest ∧ i < s.maxCodes ∧ memRead s.codes i = none

/-! Runs. -/

/-- A wait that is interrupted any number of times accounts for the whole of `REM`, with nothing but SLEEP transactions
of at least 1 microsecond, and ends in the state in which the uninterrupted wait ends, but for the trace (R157, R187,
R192). -/
def Obligations.InterruptedWaitSleepsTheWholeDuration : Prop :=
  ∀ (s : State) (early : List Dur) (rest : List Dur), s.moves = [] → s.st = .transmitting → s.phase = true → s.rem ≠ 0 →
    (s.rem :: early).IsChain (fun d a => a ≤ d) → (∀ a ∈ early, a ≠ 0) → s.sleepAnswers = early ++ 0 :: rest →
    ∃ (t u : State) (ts : List Transaction),
      runFor (early.length + 1) s = .next t ∧
      exec (.sleep s.pin s.rem) { s with sleepAnswers := 0 :: rest } = .next u ∧
      t = { u with trace := s.trace ++ ts } ∧ ts.length = early.length + 1 ∧ accountedTime ts = s.rem.toNat ∧
      ∀ x ∈ ts, ∃ d a : Dur, x = .sleep s.pin d a ∧ 1 ≤ d.toNat ∧ a ≤ d

/-- From the first segment of a plan, with favourable answers, the engine sends the whole plan in order, each segment as
SETLEVEL then SLEEP, and is then where the last wait of the plan leads (R107, R108, R109). -/
def Obligations.OneRepeatSendsThePlanInOrder : Prop :=
  ∀ (s : State) (oks : List Bool) (sleeps : List Dur), s.moves = [] → s.st = .transmitting → s.phase = false →
    s.seg = 0 → s.plan.length = 2 * s.bitlen.toNat + 2 → (∀ g ∈ s.plan, g.duration ≠ 0) →
    s.okAnswers = List.replicate s.plan.length true ++ oks → s.sleepAnswers = List.replicate s.plan.length 0 ++ sleeps →
    ∃ t, runFor (2 * s.plan.length) s = .next t ∧
      t.trace = s.trace ++ planTrace s.pin s.plan ∧ t.okAnswers = oks ∧ t.sleepAnswers = sleeps ∧
      t.configuration = s.configuration ∧ t.record = s.record ∧ t.seg = 0 ∧ t.rem = 0 ∧ t.phase = false ∧
      (if s.r.toNat + 1 < s.iterations.toNat then t.st = .transmitting ∧ t.r = s.r + 1 ∧ t.k = s.k ∧ t.plan = s.plan
      else if s.k.toNat + 1 < s.ncodes.toNat then t.st = .encoding ∧ t.r = 0 ∧ t.k = s.k + 1
      else t.st = .releasing ∧ t.r = 0 ∧ t.k = s.k)

/-- The port trace of a successful run with no early sleep return (R101): ACQUIRE and SETLEVEL LOW; every code's plan
`iterations` times back to back, in order; SETLEVEL LOW and RELEASE. The run takes one step for each transaction and one
for each code, and ends in IDLE with success, the handle given up and the level LOW. -/
def Obligations.SuccessfulRunHasTheContractTrace : Prop :=
  ∀ (s : State) (codes : List Word) (oks : List Bool) (sleeps : List Dur),
    s.moves = [] → s.st = .acquiringPin → s.phase = false → s.owned = false → s.result = .none → s.abortp = false →
    s.ncodes ≠ 0 → s.iterations ≠ 0 → s.bitlen ≠ 0 → s.pulselen ≠ 0 → CodeList s codes →
    s.okAnswers = List.replicate (3 + codes.length * s.iterations.toNat * (2 * s.bitlen.toNat + 2)) true ++ oks →
    s.sleepAnswers = List.replicate (codes.length * s.iterations.toNat * (2 * s.bitlen.toNat + 2)) 0 ++ sleeps →
    ∃ t, runFor
        (4 + codes.length + 2 * (codes.length * s.iterations.toNat * (2 * s.bitlen.toNat + 2))) s = .next t ∧
      t.trace = s.trace ++ contractTrace codes s.iterations s.pin s.pulselen s.bitlen ∧
      t.runResult = .success ∧ t.st = .idle ∧ t.owned = false ∧ t.level = .low ∧
      t.configuration = s.configuration ∧ t.okAnswers = oks ∧ t.sleepAnswers = sleeps

/-- The time the contract's trace accounts for: `n * I * (4b + 32) * p` microseconds for `n` codes, and `(4b + 32) * p`
for one plan (R113, R191). -/
def Obligations.ContractTraceLastsTheComputableTime : Prop :=
  ∀ (codes : List Word) (iterations pin p b : Word),
    (∀ c, planTime (planOf c b p) = (4 * b.toNat + 32) * p.toNat) ∧
    accountedTime (contractTrace codes iterations pin p b) =
      codes.length * iterations.toNat * (4 * b.toNat + 32) * p.toNat

/-! What is observed of a run (R9). That a run is cut out of the whole trace by the field `runFrom` is the model's choice
(log 22). -/

/-- START in IDLE begins a new observation, refused or not: it issues no transaction, the last run's transactions are no
longer observed, and a configuration that is not valid is observed as an InvalidParameter with a mask and no code index
(R9, R103; log 22). -/
def Obligations.StartBeginsANewObservation : Prop :=
  ∀ s : State, s.st = .idle →
    (s.ncodes ≠ 0 → s.iterations ≠ 0 → s.bitlen ≠ 0 → s.pulselen ≠ 0 →
      ∃ t, exec .transmit s = .next t ∧ t.trace = s.trace ∧ t.observe = ([], .inProgress)) ∧
    (s.owned = false → (s.ncodes = 0 ∨ s.iterations = 0 ∨ s.bitlen = 0 ∨ s.pulselen = 0) →
      ∃ (t : State) (stage : Stage) (mask : BitVec 4), exec .transmit s = .next t ∧ t.trace = s.trace ∧ mask ≠ 0 ∧
        t.observe = ([], .failure .invalidParameter stage mask none))

/-- The runs before the last one are not observed: a state whose earlier transactions are any others takes the same steps
and is observed the same, and all else in it is the same (R9; log 22). -/
def Obligations.EarlierRunsAreNotObserved : Prop :=
  ∀ (n : Nat) (s t : State) (older : List Transaction), s.runFrom ≤ s.trace.length → runFor n s = .next t →
    ∃ u, runFor n { s with trace := older ++ s.runTrace, runFrom := older.length } = .next u ∧ u.observe = t.observe ∧
      u = { t with trace := u.trace, runFrom := u.runFrom }

/-- A run from the START write to the return to IDLE, with favourable answers and after whatever earlier runs, is observed
as the contract's port trace and success, and nothing else (R9, R75, R101; log 22). -/
def Obligations.CompleteRunIsObservedAsTheContract : Prop :=
  ∀ (s : State) (codes : List Word) (oks : List Bool) (sleeps : List Dur),
    s.moves = [.host (.write 0 1)] → s.st = .idle → s.owned = false →
    s.ncodes ≠ 0 → s.iterations ≠ 0 → s.bitlen ≠ 0 → s.pulselen ≠ 0 → CodeList s codes →
    s.okAnswers = List.replicate (3 + codes.length * s.iterations.toNat * (2 * s.bitlen.toNat + 2)) true ++ oks →
    s.sleepAnswers = List.replicate (codes.length * s.iterations.toNat * (2 * s.bitlen.toNat + 2)) 0 ++ sleeps →
    ∃ t, runFor (5 + codes.length + 2 * (codes.length * s.iterations.toNat * (2 * s.bitlen.toNat + 2))) s = .next t ∧
      t.observe = (contractTrace codes s.iterations s.pin s.pulselen s.bitlen, .success)
end

