-- ==== Sys2Proof/Laws/Memory.lean ====
section
/-! SUPPORT. The code list memory: reads after writes, and the canonical form kept by every operation. -/

namespace Sys2Proof.Machine

@[simp] theorem memRead_nil (i : Nat) : memRead [] i = none := rfl

theorem memRead_memWrite_same (m : Memory) (i : Nat) (v : Word) : memRead (memWrite m i v) i = some v := by
  induction m with
  | nil => simp [memWrite, memRead]
  | cons x m ih =>
    obtain ⟨a, w⟩ := x
    unfold memWrite
    split
    · simp [memRead]
    · split
      · simp [memRead]
      · rw [memRead, if_neg (by omega), ih]

theorem memRead_memWrite_other (m : Memory) {i j : Nat} (v : Word) (h : j ≠ i) :
    memRead (memWrite m i v) j = memRead m j := by
  induction m with
  | nil => simp [memWrite, memRead, Ne.symm h]
  | cons x m ih =>
    obtain ⟨a, w⟩ := x
    unfold memWrite
    split
    · rw [memRead, if_neg (Ne.symm h)]
    · split
      · subst_vars; simp [memRead, Ne.symm h]
      · simp only [memRead, ih]

/-- A write lists nothing but what was listed and the written index. -/
theorem mem_memWrite {m : Memory} {i : Nat} {v : Word} {x : Nat × Word} (h : x ∈ memWrite m i v) :
    x ∈ m ∨ x = (i, v) := by
  induction m with
  | nil => simpa [memWrite] using h
  | cons y m ih =>
    obtain ⟨a, w⟩ := y
    unfold memWrite at h
    split at h
    · rcases List.mem_cons.1 h with h | h
      · exact .inr h
      · exact .inl h
    · split at h
      · rcases List.mem_cons.1 h with h | h
        · exact .inr h
        · exact .inl (List.mem_cons_of_mem _ h)
      · rcases List.mem_cons.1 h with h | h
        · exact .inl (h ▸ List.mem_cons_self)
        · rcases ih h with h | h
          · exact .inl (List.mem_cons_of_mem _ h)
          · exact .inr h

/-- A write keeps the canonical form. -/
theorem memWrite_wf {m : Memory} (i : Nat) (v : Word) (h : Memory.wf m) : Memory.wf (memWrite m i v) := by
  induction m with
  | nil => simp [memWrite, Memory.wf]
  | cons y m ih =>
    obtain ⟨a, w⟩ := y
    have ⟨ha, hm⟩ := List.pairwise_cons.1 h
    unfold memWrite
    split
    · rename_i hi
      refine List.pairwise_cons.2 ⟨fun x hx => ?_, h⟩
      rcases List.mem_cons.1 hx with rfl | hx
      · exact hi
      · exact lt_trans hi (ha x hx)
    · rename_i hi
      split
      · rename_i he
        exact List.pairwise_cons.2 ⟨fun x hx => he ▸ ha x hx, hm⟩
      · rename_i he
        refine List.pairwise_cons.2 ⟨fun x hx => ?_, ih hm⟩
        rcases mem_memWrite hx with hx | rfl
        · exact ha x hx
        · show a < i
          omega

theorem reset_codes_wf : Memory.wf State.reset.codes := List.Pairwise.nil

/-- Canonical memories that read alike at every index are equal. -/
theorem memory_ext {m n : Memory} (hm : Memory.wf m) (hn : Memory.wf n) (h : ∀ i, memRead m i = memRead n i) :
    m = n := by
  have lt_read : ∀ {l : Memory} {i : Nat}, (∀ x ∈ l, i < x.1) → memRead l i = none := by
    intro l i hl
    induction l with
    | nil => rfl
    | cons x l ih =>
      have := hl x List.mem_cons_self
      rw [memRead, if_neg (by omega)]
      exact ih fun y hy => hl y (List.mem_cons_of_mem _ hy)
  induction m generalizing n with
  | nil =>
    cases n with
    | nil => rfl
    | cons y n => have := h y.1; simp [memRead] at this
  | cons x m ih =>
    obtain ⟨a, v⟩ := x
    have ⟨ha, hm'⟩ := List.pairwise_cons.1 hm
    cases n with
    | nil => have := h a; simp [memRead] at this
    | cons y n =>
      obtain ⟨b, w⟩ := y
      have ⟨hb, hn'⟩ := List.pairwise_cons.1 hn
      have hab : a = b := by
        rcases lt_trichotomy a b with hlt | heq | hgt
        · have := h a
          rw [memRead, if_pos rfl, memRead, if_neg (by omega), lt_read fun z hz => lt_trans hlt (hb z hz)] at this
          cases this
        · exact heq
        · have := h b
          rw [memRead, if_neg (by omega), lt_read fun z hz => lt_trans hgt (ha z hz), memRead, if_pos rfl] at this
          cases this
      subst hab
      have hv : v = w := by simpa [memRead] using h a
      subst hv
      refine congrArg _ (ih hm' hn' fun i => ?_)
      by_cases hi : a = i
      · subst hi
        rw [lt_read ha, lt_read hb]
      · simpa [memRead, hi] using h i

end Sys2Proof.Machine
end

