-- ==== Sys2Proof/Laws/State.lean ====
section
/-! SUPPORT. What each named update of the state does to each field: later proofs cite these and unfold no update. -/

namespace Sys2Proof.Machine

/-! `goTo` writes STATE and PHASE. -/

@[simp] theorem goTo_ncodes (s : State) (q : SeqState) (b : Bool) : (s.goTo q b).ncodes = s.ncodes := rfl
@[simp] theorem goTo_iterations (s : State) (q : SeqState) (b : Bool) : (s.goTo q b).iterations = s.iterations := rfl
@[simp] theorem goTo_pin (s : State) (q : SeqState) (b : Bool) : (s.goTo q b).pin = s.pin := rfl
@[simp] theorem goTo_pulselen (s : State) (q : SeqState) (b : Bool) : (s.goTo q b).pulselen = s.pulselen := rfl
@[simp] theorem goTo_bitlen (s : State) (q : SeqState) (b : Bool) : (s.goTo q b).bitlen = s.bitlen := rfl
@[simp] theorem goTo_codes (s : State) (q : SeqState) (b : Bool) : (s.goTo q b).codes = s.codes := rfl
@[simp] theorem goTo_st (s : State) (q : SeqState) (b : Bool) : (s.goTo q b).st = q := rfl
@[simp] theorem goTo_phase (s : State) (q : SeqState) (b : Bool) : (s.goTo q b).phase = b := rfl
@[simp] theorem goTo_k (s : State) (q : SeqState) (b : Bool) : (s.goTo q b).k = s.k := rfl
@[simp] theorem goTo_r (s : State) (q : SeqState) (b : Bool) : (s.goTo q b).r = s.r := rfl
@[simp] theorem goTo_seg (s : State) (q : SeqState) (b : Bool) : (s.goTo q b).seg = s.seg := rfl
@[simp] theorem goTo_plan (s : State) (q : SeqState) (b : Bool) : (s.goTo q b).plan = s.plan := rfl
@[simp] theorem goTo_rem (s : State) (q : SeqState) (b : Bool) : (s.goTo q b).rem = s.rem := rfl
@[simp] theorem goTo_done (s : State) (q : SeqState) (b : Bool) : (s.goTo q b).done = s.done := rfl
@[simp] theorem goTo_owned (s : State) (q : SeqState) (b : Bool) : (s.goTo q b).owned = s.owned := rfl
@[simp] theorem goTo_level (s : State) (q : SeqState) (b : Bool) : (s.goTo q b).level = s.level := rfl
@[simp] theorem goTo_abortp (s : State) (q : SeqState) (b : Bool) : (s.goTo q b).abortp = s.abortp := rfl
@[simp] theorem goTo_result (s : State) (q : SeqState) (b : Bool) : (s.goTo q b).result = s.result := rfl
@[simp] theorem goTo_stage (s : State) (q : SeqState) (b : Bool) : (s.goTo q b).stage = s.stage := rfl
@[simp] theorem goTo_badparam (s : State) (q : SeqState) (b : Bool) : (s.goTo q b).badparam = s.badparam := rfl
@[simp] theorem goTo_cidxv (s : State) (q : SeqState) (b : Bool) : (s.goTo q b).cidxv = s.cidxv := rfl
@[simp] theorem goTo_erridx (s : State) (q : SeqState) (b : Bool) : (s.goTo q b).erridx = s.erridx := rfl
@[simp] theorem goTo_maxCodes (s : State) (q : SeqState) (b : Bool) : (s.goTo q b).maxCodes = s.maxCodes := rfl
@[simp] theorem goTo_moves (s : State) (q : SeqState) (b : Bool) : (s.goTo q b).moves = s.moves := rfl
@[simp] theorem goTo_okAnswers (s : State) (q : SeqState) (b : Bool) : (s.goTo q b).okAnswers = s.okAnswers := rfl
@[simp] theorem goTo_sleepAnswers (s : State) (q : SeqState) (b : Bool) : (s.goTo q b).sleepAnswers = s.sleepAnswers := rfl
@[simp] theorem goTo_draws (s : State) (q : SeqState) (b : Bool) : (s.goTo q b).draws = s.draws := rfl
@[simp] theorem goTo_trace (s : State) (q : SeqState) (b : Bool) : (s.goTo q b).trace = s.trace := rfl
@[simp] theorem goTo_runFrom (s : State) (q : SeqState) (b : Bool) : (s.goTo q b).runFrom = s.runFrom := rfl
@[simp] theorem goTo_symOut (s : State) (q : SeqState) (b : Bool) : (s.goTo q b).symOut = s.symOut := rfl
@[simp] theorem goTo_segOut (s : State) (q : SeqState) (b : Bool) : (s.goTo q b).segOut = s.segOut := rfl
@[simp] theorem goTo_rdata (s : State) (q : SeqState) (b : Bool) : (s.goTo q b).rdata = s.rdata := rfl

/-! `log` appends to the trace. -/

@[simp] theorem log_ncodes (s : State) (t : Transaction) : (s.log t).ncodes = s.ncodes := rfl
@[simp] theorem log_iterations (s : State) (t : Transaction) : (s.log t).iterations = s.iterations := rfl
@[simp] theorem log_pin (s : State) (t : Transaction) : (s.log t).pin = s.pin := rfl
@[simp] theorem log_pulselen (s : State) (t : Transaction) : (s.log t).pulselen = s.pulselen := rfl
@[simp] theorem log_bitlen (s : State) (t : Transaction) : (s.log t).bitlen = s.bitlen := rfl
@[simp] theorem log_codes (s : State) (t : Transaction) : (s.log t).codes = s.codes := rfl
@[simp] theorem log_st (s : State) (t : Transaction) : (s.log t).st = s.st := rfl
@[simp] theorem log_phase (s : State) (t : Transaction) : (s.log t).phase = s.phase := rfl
@[simp] theorem log_k (s : State) (t : Transaction) : (s.log t).k = s.k := rfl
@[simp] theorem log_r (s : State) (t : Transaction) : (s.log t).r = s.r := rfl
@[simp] theorem log_seg (s : State) (t : Transaction) : (s.log t).seg = s.seg := rfl
@[simp] theorem log_plan (s : State) (t : Transaction) : (s.log t).plan = s.plan := rfl
@[simp] theorem log_rem (s : State) (t : Transaction) : (s.log t).rem = s.rem := rfl
@[simp] theorem log_done (s : State) (t : Transaction) : (s.log t).done = s.done := rfl
@[simp] theorem log_owned (s : State) (t : Transaction) : (s.log t).owned = s.owned := rfl
@[simp] theorem log_level (s : State) (t : Transaction) : (s.log t).level = s.level := rfl
@[simp] theorem log_abortp (s : State) (t : Transaction) : (s.log t).abortp = s.abortp := rfl
@[simp] theorem log_result (s : State) (t : Transaction) : (s.log t).result = s.result := rfl
@[simp] theorem log_stage (s : State) (t : Transaction) : (s.log t).stage = s.stage := rfl
@[simp] theorem log_badparam (s : State) (t : Transaction) : (s.log t).badparam = s.badparam := rfl
@[simp] theorem log_cidxv (s : State) (t : Transaction) : (s.log t).cidxv = s.cidxv := rfl
@[simp] theorem log_erridx (s : State) (t : Transaction) : (s.log t).erridx = s.erridx := rfl
@[simp] theorem log_maxCodes (s : State) (t : Transaction) : (s.log t).maxCodes = s.maxCodes := rfl
@[simp] theorem log_moves (s : State) (t : Transaction) : (s.log t).moves = s.moves := rfl
@[simp] theorem log_okAnswers (s : State) (t : Transaction) : (s.log t).okAnswers = s.okAnswers := rfl
@[simp] theorem log_sleepAnswers (s : State) (t : Transaction) : (s.log t).sleepAnswers = s.sleepAnswers := rfl
@[simp] theorem log_draws (s : State) (t : Transaction) : (s.log t).draws = s.draws := rfl
@[simp] theorem log_trace (s : State) (t : Transaction) : (s.log t).trace = s.trace ++ [t] := rfl
@[simp] theorem log_runFrom (s : State) (t : Transaction) : (s.log t).runFrom = s.runFrom := rfl
@[simp] theorem log_symOut (s : State) (t : Transaction) : (s.log t).symOut = s.symOut := rfl
@[simp] theorem log_segOut (s : State) (t : Transaction) : (s.log t).segOut = s.segOut := rfl
@[simp] theorem log_rdata (s : State) (t : Transaction) : (s.log t).rdata = s.rdata := rfl

/-! `clearRun` clears the record, DONE, ABORTP, the counters and REM (R103) and begins the run's trace (R9). -/

@[simp] theorem clearRun_ncodes (s : State) : (s.clearRun).ncodes = s.ncodes := rfl
@[simp] theorem clearRun_iterations (s : State) : (s.clearRun).iterations = s.iterations := rfl
@[simp] theorem clearRun_pin (s : State) : (s.clearRun).pin = s.pin := rfl
@[simp] theorem clearRun_pulselen (s : State) : (s.clearRun).pulselen = s.pulselen := rfl
@[simp] theorem clearRun_bitlen (s : State) : (s.clearRun).bitlen = s.bitlen := rfl
@[simp] theorem clearRun_codes (s : State) : (s.clearRun).codes = s.codes := rfl
@[simp] theorem clearRun_st (s : State) : (s.clearRun).st = s.st := rfl
@[simp] theorem clearRun_phase (s : State) : (s.clearRun).phase = s.phase := rfl
@[simp] theorem clearRun_k (s : State) : (s.clearRun).k = 0 := rfl
@[simp] theorem clearRun_r (s : State) : (s.clearRun).r = 0 := rfl
@[simp] theorem clearRun_seg (s : State) : (s.clearRun).seg = 0 := rfl
@[simp] theorem clearRun_plan (s : State) : (s.clearRun).plan = s.plan := rfl
@[simp] theorem clearRun_rem (s : State) : (s.clearRun).rem = 0 := rfl
@[simp] theorem clearRun_done (s : State) : (s.clearRun).done = false := rfl
@[simp] theorem clearRun_owned (s : State) : (s.clearRun).owned = s.owned := rfl
@[simp] theorem clearRun_level (s : State) : (s.clearRun).level = s.level := rfl
@[simp] theorem clearRun_abortp (s : State) : (s.clearRun).abortp = false := rfl
@[simp] theorem clearRun_result (s : State) : (s.clearRun).result = .none := rfl
@[simp] theorem clearRun_stage (s : State) : (s.clearRun).stage = .none := rfl
@[simp] theorem clearRun_badparam (s : State) : (s.clearRun).badparam = 0 := rfl
@[simp] theorem clearRun_cidxv (s : State) : (s.clearRun).cidxv = false := rfl
@[simp] theorem clearRun_erridx (s : State) : (s.clearRun).erridx = 0 := rfl
@[simp] theorem clearRun_maxCodes (s : State) : (s.clearRun).maxCodes = s.maxCodes := rfl
@[simp] theorem clearRun_moves (s : State) : (s.clearRun).moves = s.moves := rfl
@[simp] theorem clearRun_okAnswers (s : State) : (s.clearRun).okAnswers = s.okAnswers := rfl
@[simp] theorem clearRun_sleepAnswers (s : State) : (s.clearRun).sleepAnswers = s.sleepAnswers := rfl
@[simp] theorem clearRun_draws (s : State) : (s.clearRun).draws = s.draws := rfl
@[simp] theorem clearRun_trace (s : State) : (s.clearRun).trace = s.trace := rfl
@[simp] theorem clearRun_runFrom (s : State) : (s.clearRun).runFrom = s.trace.length := rfl
@[simp] theorem clearRun_symOut (s : State) : (s.clearRun).symOut = s.symOut := rfl
@[simp] theorem clearRun_segOut (s : State) : (s.clearRun).segOut = s.segOut := rfl
@[simp] theorem clearRun_rdata (s : State) : (s.clearRun).rdata = s.rdata := rfl

/-! `takePlan` ends the ENCODING step (R106). -/

@[simp] theorem takePlan_ncodes (s : State) : (s.takePlan).ncodes = s.ncodes := rfl
@[simp] theorem takePlan_iterations (s : State) : (s.takePlan).iterations = s.iterations := rfl
@[simp] theorem takePlan_pin (s : State) : (s.takePlan).pin = s.pin := rfl
@[simp] theorem takePlan_pulselen (s : State) : (s.takePlan).pulselen = s.pulselen := rfl
@[simp] theorem takePlan_bitlen (s : State) : (s.takePlan).bitlen = s.bitlen := rfl
@[simp] theorem takePlan_codes (s : State) : (s.takePlan).codes = s.codes := rfl
@[simp] theorem takePlan_st (s : State) : (s.takePlan).st = .transmitting := rfl
@[simp] theorem takePlan_phase (s : State) : (s.takePlan).phase = false := rfl
@[simp] theorem takePlan_k (s : State) : (s.takePlan).k = s.k := rfl
@[simp] theorem takePlan_r (s : State) : (s.takePlan).r = 0 := rfl
@[simp] theorem takePlan_seg (s : State) : (s.takePlan).seg = 0 := rfl
@[simp] theorem takePlan_plan (s : State) : (s.takePlan).plan = s.segOut := rfl
@[simp] theorem takePlan_rem (s : State) : (s.takePlan).rem = s.rem := rfl
@[simp] theorem takePlan_done (s : State) : (s.takePlan).done = s.done := rfl
@[simp] theorem takePlan_owned (s : State) : (s.takePlan).owned = s.owned := rfl
@[simp] theorem takePlan_level (s : State) : (s.takePlan).level = s.level := rfl
@[simp] theorem takePlan_abortp (s : State) : (s.takePlan).abortp = s.abortp := rfl
@[simp] theorem takePlan_result (s : State) : (s.takePlan).result = s.result := rfl
@[simp] theorem takePlan_stage (s : State) : (s.takePlan).stage = s.stage := rfl
@[simp] theorem takePlan_badparam (s : State) : (s.takePlan).badparam = s.badparam := rfl
@[simp] theorem takePlan_cidxv (s : State) : (s.takePlan).cidxv = s.cidxv := rfl
@[simp] theorem takePlan_erridx (s : State) : (s.takePlan).erridx = s.erridx := rfl
@[simp] theorem takePlan_maxCodes (s : State) : (s.takePlan).maxCodes = s.maxCodes := rfl
@[simp] theorem takePlan_moves (s : State) : (s.takePlan).moves = s.moves := rfl
@[simp] theorem takePlan_okAnswers (s : State) : (s.takePlan).okAnswers = s.okAnswers := rfl
@[simp] theorem takePlan_sleepAnswers (s : State) : (s.takePlan).sleepAnswers = s.sleepAnswers := rfl
@[simp] theorem takePlan_draws (s : State) : (s.takePlan).draws = s.draws := rfl
@[simp] theorem takePlan_trace (s : State) : (s.takePlan).trace = s.trace := rfl
@[simp] theorem takePlan_runFrom (s : State) : (s.takePlan).runFrom = s.runFrom := rfl
@[simp] theorem takePlan_symOut (s : State) : (s.takePlan).symOut = [] := rfl
@[simp] theorem takePlan_segOut (s : State) : (s.takePlan).segOut = [] := rfl
@[simp] theorem takePlan_rdata (s : State) : (s.takePlan).rdata = s.rdata := rfl

/-! `okAnswerTaken` uses up a written answer or a free value. -/

@[simp] theorem okAnswerTaken_ncodes (s : State) : (s.okAnswerTaken).ncodes = s.ncodes := by
  unfold State.okAnswerTaken; split <;> rfl
@[simp] theorem okAnswerTaken_iterations (s : State) : (s.okAnswerTaken).iterations = s.iterations := by
  unfold State.okAnswerTaken; split <;> rfl
@[simp] theorem okAnswerTaken_pin (s : State) : (s.okAnswerTaken).pin = s.pin := by
  unfold State.okAnswerTaken; split <;> rfl
@[simp] theorem okAnswerTaken_pulselen (s : State) : (s.okAnswerTaken).pulselen = s.pulselen := by
  unfold State.okAnswerTaken; split <;> rfl
@[simp] theorem okAnswerTaken_bitlen (s : State) : (s.okAnswerTaken).bitlen = s.bitlen := by
  unfold State.okAnswerTaken; split <;> rfl
@[simp] theorem okAnswerTaken_codes (s : State) : (s.okAnswerTaken).codes = s.codes := by
  unfold State.okAnswerTaken; split <;> rfl
@[simp] theorem okAnswerTaken_st (s : State) : (s.okAnswerTaken).st = s.st := by
  unfold State.okAnswerTaken; split <;> rfl
@[simp] theorem okAnswerTaken_phase (s : State) : (s.okAnswerTaken).phase = s.phase := by
  unfold State.okAnswerTaken; split <;> rfl
@[simp] theorem okAnswerTaken_k (s : State) : (s.okAnswerTaken).k = s.k := by
  unfold State.okAnswerTaken; split <;> rfl
@[simp] theorem okAnswerTaken_r (s : State) : (s.okAnswerTaken).r = s.r := by
  unfold State.okAnswerTaken; split <;> rfl
@[simp] theorem okAnswerTaken_seg (s : State) : (s.okAnswerTaken).seg = s.seg := by
  unfold State.okAnswerTaken; split <;> rfl
@[simp] theorem okAnswerTaken_plan (s : State) : (s.okAnswerTaken).plan = s.plan := by
  unfold State.okAnswerTaken; split <;> rfl
@[simp] theorem okAnswerTaken_rem (s : State) : (s.okAnswerTaken).rem = s.rem := by
  unfold State.okAnswerTaken; split <;> rfl
@[simp] theorem okAnswerTaken_done (s : State) : (s.okAnswerTaken).done = s.done := by
  unfold State.okAnswerTaken; split <;> rfl
@[simp] theorem okAnswerTaken_owned (s : State) : (s.okAnswerTaken).owned = s.owned := by
  unfold State.okAnswerTaken; split <;> rfl
@[simp] theorem okAnswerTaken_level (s : State) : (s.okAnswerTaken).level = s.level := by
  unfold State.okAnswerTaken; split <;> rfl
@[simp] theorem okAnswerTaken_abortp (s : State) : (s.okAnswerTaken).abortp = s.abortp := by
  unfold State.okAnswerTaken; split <;> rfl
@[simp] theorem okAnswerTaken_result (s : State) : (s.okAnswerTaken).result = s.result := by
  unfold State.okAnswerTaken; split <;> rfl
@[simp] theorem okAnswerTaken_stage (s : State) : (s.okAnswerTaken).stage = s.stage := by
  unfold State.okAnswerTaken; split <;> rfl
@[simp] theorem okAnswerTaken_badparam (s : State) : (s.okAnswerTaken).badparam = s.badparam := by
  unfold State.okAnswerTaken; split <;> rfl
@[simp] theorem okAnswerTaken_cidxv (s : State) : (s.okAnswerTaken).cidxv = s.cidxv := by
  unfold State.okAnswerTaken; split <;> rfl
@[simp] theorem okAnswerTaken_erridx (s : State) : (s.okAnswerTaken).erridx = s.erridx := by
  unfold State.okAnswerTaken; split <;> rfl
@[simp] theorem okAnswerTaken_maxCodes (s : State) : (s.okAnswerTaken).maxCodes = s.maxCodes := by
  unfold State.okAnswerTaken; split <;> rfl
@[simp] theorem okAnswerTaken_moves (s : State) : (s.okAnswerTaken).moves = s.moves := by
  unfold State.okAnswerTaken; split <;> rfl
@[simp] theorem okAnswerTaken_sleepAnswers (s : State) : (s.okAnswerTaken).sleepAnswers = s.sleepAnswers := by
  unfold State.okAnswerTaken; split <;> rfl
@[simp] theorem okAnswerTaken_trace (s : State) : (s.okAnswerTaken).trace = s.trace := by
  unfold State.okAnswerTaken; split <;> rfl
@[simp] theorem okAnswerTaken_runFrom (s : State) : (s.okAnswerTaken).runFrom = s.runFrom := by
  unfold State.okAnswerTaken; split <;> rfl
@[simp] theorem okAnswerTaken_symOut (s : State) : (s.okAnswerTaken).symOut = s.symOut := by
  unfold State.okAnswerTaken; split <;> rfl
@[simp] theorem okAnswerTaken_segOut (s : State) : (s.okAnswerTaken).segOut = s.segOut := by
  unfold State.okAnswerTaken; split <;> rfl
@[simp] theorem okAnswerTaken_rdata (s : State) : (s.okAnswerTaken).rdata = s.rdata := by
  unfold State.okAnswerTaken; split <;> rfl

/-! `sleepAnswerTaken` uses up a written answer or a free value. -/

@[simp] theorem sleepAnswerTaken_ncodes (s : State) : (s.sleepAnswerTaken).ncodes = s.ncodes := by
  unfold State.sleepAnswerTaken; split <;> rfl
@[simp] theorem sleepAnswerTaken_iterations (s : State) : (s.sleepAnswerTaken).iterations = s.iterations := by
  unfold State.sleepAnswerTaken; split <;> rfl
@[simp] theorem sleepAnswerTaken_pin (s : State) : (s.sleepAnswerTaken).pin = s.pin := by
  unfold State.sleepAnswerTaken; split <;> rfl
@[simp] theorem sleepAnswerTaken_pulselen (s : State) : (s.sleepAnswerTaken).pulselen = s.pulselen := by
  unfold State.sleepAnswerTaken; split <;> rfl
@[simp] theorem sleepAnswerTaken_bitlen (s : State) : (s.sleepAnswerTaken).bitlen = s.bitlen := by
  unfold State.sleepAnswerTaken; split <;> rfl
@[simp] theorem sleepAnswerTaken_codes (s : State) : (s.sleepAnswerTaken).codes = s.codes := by
  unfold State.sleepAnswerTaken; split <;> rfl
@[simp] theorem sleepAnswerTaken_st (s : State) : (s.sleepAnswerTaken).st = s.st := by
  unfold State.sleepAnswerTaken; split <;> rfl
@[simp] theorem sleepAnswerTaken_phase (s : State) : (s.sleepAnswerTaken).phase = s.phase := by
  unfold State.sleepAnswerTaken; split <;> rfl
@[simp] theorem sleepAnswerTaken_k (s : State) : (s.sleepAnswerTaken).k = s.k := by
  unfold State.sleepAnswerTaken; split <;> rfl
@[simp] theorem sleepAnswerTaken_r (s : State) : (s.sleepAnswerTaken).r = s.r := by
  unfold State.sleepAnswerTaken; split <;> rfl
@[simp] theorem sleepAnswerTaken_seg (s : State) : (s.sleepAnswerTaken).seg = s.seg := by
  unfold State.sleepAnswerTaken; split <;> rfl
@[simp] theorem sleepAnswerTaken_plan (s : State) : (s.sleepAnswerTaken).plan = s.plan := by
  unfold State.sleepAnswerTaken; split <;> rfl
@[simp] theorem sleepAnswerTaken_rem (s : State) : (s.sleepAnswerTaken).rem = s.rem := by
  unfold State.sleepAnswerTaken; split <;> rfl
@[simp] theorem sleepAnswerTaken_done (s : State) : (s.sleepAnswerTaken).done = s.done := by
  unfold State.sleepAnswerTaken; split <;> rfl
@[simp] theorem sleepAnswerTaken_owned (s : State) : (s.sleepAnswerTaken).owned = s.owned := by
  unfold State.sleepAnswerTaken; split <;> rfl
@[simp] theorem sleepAnswerTaken_level (s : State) : (s.sleepAnswerTaken).level = s.level := by
  unfold State.sleepAnswerTaken; split <;> rfl
@[simp] theorem sleepAnswerTaken_abortp (s : State) : (s.sleepAnswerTaken).abortp = s.abortp := by
  unfold State.sleepAnswerTaken; split <;> rfl
@[simp] theorem sleepAnswerTaken_result (s : State) : (s.sleepAnswerTaken).result = s.result := by
  unfold State.sleepAnswerTaken; split <;> rfl
@[simp] theorem sleepAnswerTaken_stage (s : State) : (s.sleepAnswerTaken).stage = s.stage := by
  unfold State.sleepAnswerTaken; split <;> rfl
@[simp] theorem sleepAnswerTaken_badparam (s : State) : (s.sleepAnswerTaken).badparam = s.badparam := by
  unfold State.sleepAnswerTaken; split <;> rfl
@[simp] theorem sleepAnswerTaken_cidxv (s : State) : (s.sleepAnswerTaken).cidxv = s.cidxv := by
  unfold State.sleepAnswerTaken; split <;> rfl
@[simp] theorem sleepAnswerTaken_erridx (s : State) : (s.sleepAnswerTaken).erridx = s.erridx := by
  unfold State.sleepAnswerTaken; split <;> rfl
@[simp] theorem sleepAnswerTaken_maxCodes (s : State) : (s.sleepAnswerTaken).maxCodes = s.maxCodes := by
  unfold State.sleepAnswerTaken; split <;> rfl
@[simp] theorem sleepAnswerTaken_moves (s : State) : (s.sleepAnswerTaken).moves = s.moves := by
  unfold State.sleepAnswerTaken; split <;> rfl
@[simp] theorem sleepAnswerTaken_okAnswers (s : State) : (s.sleepAnswerTaken).okAnswers = s.okAnswers := by
  unfold State.sleepAnswerTaken; split <;> rfl
@[simp] theorem sleepAnswerTaken_trace (s : State) : (s.sleepAnswerTaken).trace = s.trace := by
  unfold State.sleepAnswerTaken; split <;> rfl
@[simp] theorem sleepAnswerTaken_runFrom (s : State) : (s.sleepAnswerTaken).runFrom = s.runFrom := by
  unfold State.sleepAnswerTaken; split <;> rfl
@[simp] theorem sleepAnswerTaken_symOut (s : State) : (s.sleepAnswerTaken).symOut = s.symOut := by
  unfold State.sleepAnswerTaken; split <;> rfl
@[simp] theorem sleepAnswerTaken_segOut (s : State) : (s.sleepAnswerTaken).segOut = s.segOut := by
  unfold State.sleepAnswerTaken; split <;> rfl
@[simp] theorem sleepAnswerTaken_rdata (s : State) : (s.sleepAnswerTaken).rdata = s.rdata := by
  unfold State.sleepAnswerTaken; split <;> rfl

/-! `writeRecord` writes the record only (R154). -/

@[simp] theorem writeRecord_ncodes (s : State) (e : ErrorInfo) : (s.writeRecord e).ncodes = s.ncodes := by
  unfold State.writeRecord; split <;> rfl
@[simp] theorem writeRecord_iterations (s : State) (e : ErrorInfo) : (s.writeRecord e).iterations = s.iterations := by
  unfold State.writeRecord; split <;> rfl
@[simp] theorem writeRecord_pin (s : State) (e : ErrorInfo) : (s.writeRecord e).pin = s.pin := by
  unfold State.writeRecord; split <;> rfl
@[simp] theorem writeRecord_pulselen (s : State) (e : ErrorInfo) : (s.writeRecord e).pulselen = s.pulselen := by
  unfold State.writeRecord; split <;> rfl
@[simp] theorem writeRecord_bitlen (s : State) (e : ErrorInfo) : (s.writeRecord e).bitlen = s.bitlen := by
  unfold State.writeRecord; split <;> rfl
@[simp] theorem writeRecord_codes (s : State) (e : ErrorInfo) : (s.writeRecord e).codes = s.codes := by
  unfold State.writeRecord; split <;> rfl
@[simp] theorem writeRecord_st (s : State) (e : ErrorInfo) : (s.writeRecord e).st = s.st := by
  unfold State.writeRecord; split <;> rfl
@[simp] theorem writeRecord_phase (s : State) (e : ErrorInfo) : (s.writeRecord e).phase = s.phase := by
  unfold State.writeRecord; split <;> rfl
@[simp] theorem writeRecord_k (s : State) (e : ErrorInfo) : (s.writeRecord e).k = s.k := by
  unfold State.writeRecord; split <;> rfl
@[simp] theorem writeRecord_r (s : State) (e : ErrorInfo) : (s.writeRecord e).r = s.r := by
  unfold State.writeRecord; split <;> rfl
@[simp] theorem writeRecord_seg (s : State) (e : ErrorInfo) : (s.writeRecord e).seg = s.seg := by
  unfold State.writeRecord; split <;> rfl
@[simp] theorem writeRecord_plan (s : State) (e : ErrorInfo) : (s.writeRecord e).plan = s.plan := by
  unfold State.writeRecord; split <;> rfl
@[simp] theorem writeRecord_rem (s : State) (e : ErrorInfo) : (s.writeRecord e).rem = s.rem := by
  unfold State.writeRecord; split <;> rfl
@[simp] theorem writeRecord_done (s : State) (e : ErrorInfo) : (s.writeRecord e).done = s.done := by
  unfold State.writeRecord; split <;> rfl
@[simp] theorem writeRecord_owned (s : State) (e : ErrorInfo) : (s.writeRecord e).owned = s.owned := by
  unfold State.writeRecord; split <;> rfl
@[simp] theorem writeRecord_level (s : State) (e : ErrorInfo) : (s.writeRecord e).level = s.level := by
  unfold State.writeRecord; split <;> rfl
@[simp] theorem writeRecord_abortp (s : State) (e : ErrorInfo) : (s.writeRecord e).abortp = s.abortp := by
  unfold State.writeRecord; split <;> rfl
@[simp] theorem writeRecord_maxCodes (s : State) (e : ErrorInfo) : (s.writeRecord e).maxCodes = s.maxCodes := by
  unfold State.writeRecord; split <;> rfl
@[simp] theorem writeRecord_moves (s : State) (e : ErrorInfo) : (s.writeRecord e).moves = s.moves := by
  unfold State.writeRecord; split <;> rfl
@[simp] theorem writeRecord_okAnswers (s : State) (e : ErrorInfo) : (s.writeRecord e).okAnswers = s.okAnswers := by
  unfold State.writeRecord; split <;> rfl
@[simp] theorem writeRecord_sleepAnswers (s : State) (e : ErrorInfo) : (s.writeRecord e).sleepAnswers = s.sleepAnswers := by
  unfold State.writeRecord; split <;> rfl
@[simp] theorem writeRecord_draws (s : State) (e : ErrorInfo) : (s.writeRecord e).draws = s.draws := by
  unfold State.writeRecord; split <;> rfl
@[simp] theorem writeRecord_trace (s : State) (e : ErrorInfo) : (s.writeRecord e).trace = s.trace := by
  unfold State.writeRecord; split <;> rfl
@[simp] theorem writeRecord_runFrom (s : State) (e : ErrorInfo) : (s.writeRecord e).runFrom = s.runFrom := by
  unfold State.writeRecord; split <;> rfl
@[simp] theorem writeRecord_symOut (s : State) (e : ErrorInfo) : (s.writeRecord e).symOut = s.symOut := by
  unfold State.writeRecord; split <;> rfl
@[simp] theorem writeRecord_segOut (s : State) (e : ErrorInfo) : (s.writeRecord e).segOut = s.segOut := by
  unfold State.writeRecord; split <;> rfl
@[simp] theorem writeRecord_rdata (s : State) (e : ErrorInfo) : (s.writeRecord e).rdata = s.rdata := by
  unfold State.writeRecord; split <;> rfl

/-! `endRun` writes STATE, PHASE, DONE and ABORTP only (R154). -/

@[simp] theorem endRun_ncodes (s : State) : (s.endRun).ncodes = s.ncodes := by
  unfold State.endRun; split <;> rfl
@[simp] theorem endRun_iterations (s : State) : (s.endRun).iterations = s.iterations := by
  unfold State.endRun; split <;> rfl
@[simp] theorem endRun_pin (s : State) : (s.endRun).pin = s.pin := by
  unfold State.endRun; split <;> rfl
@[simp] theorem endRun_pulselen (s : State) : (s.endRun).pulselen = s.pulselen := by
  unfold State.endRun; split <;> rfl
@[simp] theorem endRun_bitlen (s : State) : (s.endRun).bitlen = s.bitlen := by
  unfold State.endRun; split <;> rfl
@[simp] theorem endRun_codes (s : State) : (s.endRun).codes = s.codes := by
  unfold State.endRun; split <;> rfl
@[simp] theorem endRun_k (s : State) : (s.endRun).k = s.k := by
  unfold State.endRun; split <;> rfl
@[simp] theorem endRun_r (s : State) : (s.endRun).r = s.r := by
  unfold State.endRun; split <;> rfl
@[simp] theorem endRun_seg (s : State) : (s.endRun).seg = s.seg := by
  unfold State.endRun; split <;> rfl
@[simp] theorem endRun_plan (s : State) : (s.endRun).plan = s.plan := by
  unfold State.endRun; split <;> rfl
@[simp] theorem endRun_rem (s : State) : (s.endRun).rem = s.rem := by
  unfold State.endRun; split <;> rfl
@[simp] theorem endRun_owned (s : State) : (s.endRun).owned = s.owned := by
  unfold State.endRun; split <;> rfl
@[simp] theorem endRun_level (s : State) : (s.endRun).level = s.level := by
  unfold State.endRun; split <;> rfl
@[simp] theorem endRun_result (s : State) : (s.endRun).result = s.result := by
  unfold State.endRun; split <;> rfl
@[simp] theorem endRun_stage (s : State) : (s.endRun).stage = s.stage := by
  unfold State.endRun; split <;> rfl
@[simp] theorem endRun_badparam (s : State) : (s.endRun).badparam = s.badparam := by
  unfold State.endRun; split <;> rfl
@[simp] theorem endRun_cidxv (s : State) : (s.endRun).cidxv = s.cidxv := by
  unfold State.endRun; split <;> rfl
@[simp] theorem endRun_erridx (s : State) : (s.endRun).erridx = s.erridx := by
  unfold State.endRun; split <;> rfl
@[simp] theorem endRun_maxCodes (s : State) : (s.endRun).maxCodes = s.maxCodes := by
  unfold State.endRun; split <;> rfl
@[simp] theorem endRun_moves (s : State) : (s.endRun).moves = s.moves := by
  unfold State.endRun; split <;> rfl
@[simp] theorem endRun_okAnswers (s : State) : (s.endRun).okAnswers = s.okAnswers := by
  unfold State.endRun; split <;> rfl
@[simp] theorem endRun_sleepAnswers (s : State) : (s.endRun).sleepAnswers = s.sleepAnswers := by
  unfold State.endRun; split <;> rfl
@[simp] theorem endRun_draws (s : State) : (s.endRun).draws = s.draws := by
  unfold State.endRun; split <;> rfl
@[simp] theorem endRun_trace (s : State) : (s.endRun).trace = s.trace := by
  unfold State.endRun; split <;> rfl
@[simp] theorem endRun_runFrom (s : State) : (s.endRun).runFrom = s.runFrom := by
  unfold State.endRun; split <;> rfl
@[simp] theorem endRun_symOut (s : State) : (s.endRun).symOut = s.symOut := by
  unfold State.endRun; split <;> rfl
@[simp] theorem endRun_segOut (s : State) : (s.endRun).segOut = s.segOut := by
  unfold State.endRun; split <;> rfl
@[simp] theorem endRun_rdata (s : State) : (s.endRun).rdata = s.rdata := by
  unfold State.endRun; split <;> rfl

/-! `raise` writes the record, STATE, PHASE, DONE and ABORTP only (R154). -/

@[simp] theorem raise_ncodes (s : State) (e : ErrorInfo) : (s.raise e).ncodes = s.ncodes := by simp [State.raise]
@[simp] theorem raise_iterations (s : State) (e : ErrorInfo) : (s.raise e).iterations = s.iterations := by simp [State.raise]
@[simp] theorem raise_pin (s : State) (e : ErrorInfo) : (s.raise e).pin = s.pin := by simp [State.raise]
@[simp] theorem raise_pulselen (s : State) (e : ErrorInfo) : (s.raise e).pulselen = s.pulselen := by simp [State.raise]
@[simp] theorem raise_bitlen (s : State) (e : ErrorInfo) : (s.raise e).bitlen = s.bitlen := by simp [State.raise]
@[simp] theorem raise_codes (s : State) (e : ErrorInfo) : (s.raise e).codes = s.codes := by simp [State.raise]
@[simp] theorem raise_k (s : State) (e : ErrorInfo) : (s.raise e).k = s.k := by simp [State.raise]
@[simp] theorem raise_r (s : State) (e : ErrorInfo) : (s.raise e).r = s.r := by simp [State.raise]
@[simp] theorem raise_seg (s : State) (e : ErrorInfo) : (s.raise e).seg = s.seg := by simp [State.raise]
@[simp] theorem raise_plan (s : State) (e : ErrorInfo) : (s.raise e).plan = s.plan := by simp [State.raise]
@[simp] theorem raise_rem (s : State) (e : ErrorInfo) : (s.raise e).rem = s.rem := by simp [State.raise]
@[simp] theorem raise_owned (s : State) (e : ErrorInfo) : (s.raise e).owned = s.owned := by simp [State.raise]
@[simp] theorem raise_level (s : State) (e : ErrorInfo) : (s.raise e).level = s.level := by simp [State.raise]
@[simp] theorem raise_maxCodes (s : State) (e : ErrorInfo) : (s.raise e).maxCodes = s.maxCodes := by simp [State.raise]
@[simp] theorem raise_moves (s : State) (e : ErrorInfo) : (s.raise e).moves = s.moves := by simp [State.raise]
@[simp] theorem raise_okAnswers (s : State) (e : ErrorInfo) : (s.raise e).okAnswers = s.okAnswers := by simp [State.raise]
@[simp] theorem raise_sleepAnswers (s : State) (e : ErrorInfo) : (s.raise e).sleepAnswers = s.sleepAnswers := by simp [State.raise]
@[simp] theorem raise_draws (s : State) (e : ErrorInfo) : (s.raise e).draws = s.draws := by simp [State.raise]
@[simp] theorem raise_trace (s : State) (e : ErrorInfo) : (s.raise e).trace = s.trace := by simp [State.raise]
@[simp] theorem raise_runFrom (s : State) (e : ErrorInfo) : (s.raise e).runFrom = s.runFrom := by simp [State.raise]
@[simp] theorem raise_symOut (s : State) (e : ErrorInfo) : (s.raise e).symOut = s.symOut := by simp [State.raise]
@[simp] theorem raise_segOut (s : State) (e : ErrorInfo) : (s.raise e).segOut = s.segOut := by simp [State.raise]
@[simp] theorem raise_rdata (s : State) (e : ErrorInfo) : (s.raise e).rdata = s.rdata := by simp [State.raise]

/-! `portRelease` (R138). -/

@[simp] theorem portRelease_ncodes (s : State) (q : Word) : (s.portRelease q).ncodes = s.ncodes := rfl
@[simp] theorem portRelease_iterations (s : State) (q : Word) : (s.portRelease q).iterations = s.iterations := rfl
@[simp] theorem portRelease_pin (s : State) (q : Word) : (s.portRelease q).pin = s.pin := rfl
@[simp] theorem portRelease_pulselen (s : State) (q : Word) : (s.portRelease q).pulselen = s.pulselen := rfl
@[simp] theorem portRelease_bitlen (s : State) (q : Word) : (s.portRelease q).bitlen = s.bitlen := rfl
@[simp] theorem portRelease_codes (s : State) (q : Word) : (s.portRelease q).codes = s.codes := rfl
@[simp] theorem portRelease_st (s : State) (q : Word) : (s.portRelease q).st = s.st := rfl
@[simp] theorem portRelease_phase (s : State) (q : Word) : (s.portRelease q).phase = s.phase := rfl
@[simp] theorem portRelease_k (s : State) (q : Word) : (s.portRelease q).k = s.k := rfl
@[simp] theorem portRelease_r (s : State) (q : Word) : (s.portRelease q).r = s.r := rfl
@[simp] theorem portRelease_seg (s : State) (q : Word) : (s.portRelease q).seg = s.seg := rfl
@[simp] theorem portRelease_plan (s : State) (q : Word) : (s.portRelease q).plan = s.plan := rfl
@[simp] theorem portRelease_rem (s : State) (q : Word) : (s.portRelease q).rem = s.rem := rfl
@[simp] theorem portRelease_done (s : State) (q : Word) : (s.portRelease q).done = s.done := rfl
@[simp] theorem portRelease_owned (s : State) (q : Word) : (s.portRelease q).owned = false := rfl
@[simp] theorem portRelease_level (s : State) (q : Word) : (s.portRelease q).level = s.level := rfl
@[simp] theorem portRelease_abortp (s : State) (q : Word) : (s.portRelease q).abortp = s.abortp := rfl
@[simp] theorem portRelease_result (s : State) (q : Word) : (s.portRelease q).result = s.result := rfl
@[simp] theorem portRelease_stage (s : State) (q : Word) : (s.portRelease q).stage = s.stage := rfl
@[simp] theorem portRelease_badparam (s : State) (q : Word) : (s.portRelease q).badparam = s.badparam := rfl
@[simp] theorem portRelease_cidxv (s : State) (q : Word) : (s.portRelease q).cidxv = s.cidxv := rfl
@[simp] theorem portRelease_erridx (s : State) (q : Word) : (s.portRelease q).erridx = s.erridx := rfl
@[simp] theorem portRelease_maxCodes (s : State) (q : Word) : (s.portRelease q).maxCodes = s.maxCodes := rfl
@[simp] theorem portRelease_moves (s : State) (q : Word) : (s.portRelease q).moves = s.moves := rfl
@[simp] theorem portRelease_okAnswers (s : State) (q : Word) : (s.portRelease q).okAnswers = s.okAnswers := rfl
@[simp] theorem portRelease_sleepAnswers (s : State) (q : Word) : (s.portRelease q).sleepAnswers = s.sleepAnswers := rfl
@[simp] theorem portRelease_draws (s : State) (q : Word) : (s.portRelease q).draws = s.draws := rfl
@[simp] theorem portRelease_trace (s : State) (q : Word) : (s.portRelease q).trace = s.trace ++ [.release q] := rfl
@[simp] theorem portRelease_runFrom (s : State) (q : Word) : (s.portRelease q).runFrom = s.runFrom := rfl
@[simp] theorem portRelease_symOut (s : State) (q : Word) : (s.portRelease q).symOut = s.symOut := rfl
@[simp] theorem portRelease_segOut (s : State) (q : Word) : (s.portRelease q).segOut = s.segOut := rfl
@[simp] theorem portRelease_rdata (s : State) (q : Word) : (s.portRelease q).rdata = s.rdata := rfl

/-! `portAcquire` (R136). -/

@[simp] theorem portAcquire_ncodes (s : State) (q : Word) : (s.portAcquire q).ncodes = s.ncodes := by simp [State.portAcquire]
@[simp] theorem portAcquire_iterations (s : State) (q : Word) : (s.portAcquire q).iterations = s.iterations := by simp [State.portAcquire]
@[simp] theorem portAcquire_pin (s : State) (q : Word) : (s.portAcquire q).pin = s.pin := by simp [State.portAcquire]
@[simp] theorem portAcquire_pulselen (s : State) (q : Word) : (s.portAcquire q).pulselen = s.pulselen := by simp [State.portAcquire]
@[simp] theorem portAcquire_bitlen (s : State) (q : Word) : (s.portAcquire q).bitlen = s.bitlen := by simp [State.portAcquire]
@[simp] theorem portAcquire_codes (s : State) (q : Word) : (s.portAcquire q).codes = s.codes := by simp [State.portAcquire]
@[simp] theorem portAcquire_st (s : State) (q : Word) : (s.portAcquire q).st = s.st := by simp [State.portAcquire]
@[simp] theorem portAcquire_phase (s : State) (q : Word) : (s.portAcquire q).phase = s.phase := by simp [State.portAcquire]
@[simp] theorem portAcquire_k (s : State) (q : Word) : (s.portAcquire q).k = s.k := by simp [State.portAcquire]
@[simp] theorem portAcquire_r (s : State) (q : Word) : (s.portAcquire q).r = s.r := by simp [State.portAcquire]
@[simp] theorem portAcquire_seg (s : State) (q : Word) : (s.portAcquire q).seg = s.seg := by simp [State.portAcquire]
@[simp] theorem portAcquire_plan (s : State) (q : Word) : (s.portAcquire q).plan = s.plan := by simp [State.portAcquire]
@[simp] theorem portAcquire_rem (s : State) (q : Word) : (s.portAcquire q).rem = s.rem := by simp [State.portAcquire]
@[simp] theorem portAcquire_done (s : State) (q : Word) : (s.portAcquire q).done = s.done := by simp [State.portAcquire]
@[simp] theorem portAcquire_owned (s : State) (q : Word) : (s.portAcquire q).owned = (s.okAnswer || s.owned) := by simp [State.portAcquire]
@[simp] theorem portAcquire_level (s : State) (q : Word) : (s.portAcquire q).level = s.level := by simp [State.portAcquire]
@[simp] theorem portAcquire_abortp (s : State) (q : Word) : (s.portAcquire q).abortp = s.abortp := by simp [State.portAcquire]
@[simp] theorem portAcquire_result (s : State) (q : Word) : (s.portAcquire q).result = s.result := by simp [State.portAcquire]
@[simp] theorem portAcquire_stage (s : State) (q : Word) : (s.portAcquire q).stage = s.stage := by simp [State.portAcquire]
@[simp] theorem portAcquire_badparam (s : State) (q : Word) : (s.portAcquire q).badparam = s.badparam := by simp [State.portAcquire]
@[simp] theorem portAcquire_cidxv (s : State) (q : Word) : (s.portAcquire q).cidxv = s.cidxv := by simp [State.portAcquire]
@[simp] theorem portAcquire_erridx (s : State) (q : Word) : (s.portAcquire q).erridx = s.erridx := by simp [State.portAcquire]
@[simp] theorem portAcquire_maxCodes (s : State) (q : Word) : (s.portAcquire q).maxCodes = s.maxCodes := by simp [State.portAcquire]
@[simp] theorem portAcquire_moves (s : State) (q : Word) : (s.portAcquire q).moves = s.moves := by simp [State.portAcquire]
@[simp] theorem portAcquire_okAnswers (s : State) (q : Word) : (s.portAcquire q).okAnswers = s.okAnswerTaken.okAnswers := by simp [State.portAcquire]
@[simp] theorem portAcquire_sleepAnswers (s : State) (q : Word) : (s.portAcquire q).sleepAnswers = s.sleepAnswers := by simp [State.portAcquire]
@[simp] theorem portAcquire_draws (s : State) (q : Word) : (s.portAcquire q).draws = s.okAnswerTaken.draws := by simp [State.portAcquire]
@[simp] theorem portAcquire_trace (s : State) (q : Word) : (s.portAcquire q).trace = s.trace ++ [.acquire q s.okAnswer] := by simp [State.portAcquire]
@[simp] theorem portAcquire_runFrom (s : State) (q : Word) : (s.portAcquire q).runFrom = s.runFrom := by simp [State.portAcquire]
@[simp] theorem portAcquire_symOut (s : State) (q : Word) : (s.portAcquire q).symOut = s.symOut := by simp [State.portAcquire]
@[simp] theorem portAcquire_segOut (s : State) (q : Word) : (s.portAcquire q).segOut = s.segOut := by simp [State.portAcquire]
@[simp] theorem portAcquire_rdata (s : State) (q : Word) : (s.portAcquire q).rdata = s.rdata := by simp [State.portAcquire]

/-! `portSetLevel` (R132). -/

@[simp] theorem portSetLevel_ncodes (s : State) (q : Word) (lv : Level) : (s.portSetLevel q lv).ncodes = s.ncodes := by simp [State.portSetLevel]
@[simp] theorem portSetLevel_iterations (s : State) (q : Word) (lv : Level) : (s.portSetLevel q lv).iterations = s.iterations := by simp [State.portSetLevel]
@[simp] theorem portSetLevel_pin (s : State) (q : Word) (lv : Level) : (s.portSetLevel q lv).pin = s.pin := by simp [State.portSetLevel]
@[simp] theorem portSetLevel_pulselen (s : State) (q : Word) (lv : Level) : (s.portSetLevel q lv).pulselen = s.pulselen := by simp [State.portSetLevel]
@[simp] theorem portSetLevel_bitlen (s : State) (q : Word) (lv : Level) : (s.portSetLevel q lv).bitlen = s.bitlen := by simp [State.portSetLevel]
@[simp] theorem portSetLevel_codes (s : State) (q : Word) (lv : Level) : (s.portSetLevel q lv).codes = s.codes := by simp [State.portSetLevel]
@[simp] theorem portSetLevel_st (s : State) (q : Word) (lv : Level) : (s.portSetLevel q lv).st = s.st := by simp [State.portSetLevel]
@[simp] theorem portSetLevel_phase (s : State) (q : Word) (lv : Level) : (s.portSetLevel q lv).phase = s.phase := by simp [State.portSetLevel]
@[simp] theorem portSetLevel_k (s : State) (q : Word) (lv : Level) : (s.portSetLevel q lv).k = s.k := by simp [State.portSetLevel]
@[simp] theorem portSetLevel_r (s : State) (q : Word) (lv : Level) : (s.portSetLevel q lv).r = s.r := by simp [State.portSetLevel]
@[simp] theorem portSetLevel_seg (s : State) (q : Word) (lv : Level) : (s.portSetLevel q lv).seg = s.seg := by simp [State.portSetLevel]
@[simp] theorem portSetLevel_plan (s : State) (q : Word) (lv : Level) : (s.portSetLevel q lv).plan = s.plan := by simp [State.portSetLevel]
@[simp] theorem portSetLevel_rem (s : State) (q : Word) (lv : Level) : (s.portSetLevel q lv).rem = s.rem := by simp [State.portSetLevel]
@[simp] theorem portSetLevel_done (s : State) (q : Word) (lv : Level) : (s.portSetLevel q lv).done = s.done := by simp [State.portSetLevel]
@[simp] theorem portSetLevel_owned (s : State) (q : Word) (lv : Level) : (s.portSetLevel q lv).owned = s.owned := by simp [State.portSetLevel]
@[simp] theorem portSetLevel_level (s : State) (q : Word) (lv : Level) : (s.portSetLevel q lv).level = if s.okAnswer then lv else s.level := by simp [State.portSetLevel]
@[simp] theorem portSetLevel_abortp (s : State) (q : Word) (lv : Level) : (s.portSetLevel q lv).abortp = s.abortp := by simp [State.portSetLevel]
@[simp] theorem portSetLevel_result (s : State) (q : Word) (lv : Level) : (s.portSetLevel q lv).result = s.result := by simp [State.portSetLevel]
@[simp] theorem portSetLevel_stage (s : State) (q : Word) (lv : Level) : (s.portSetLevel q lv).stage = s.stage := by simp [State.portSetLevel]
@[simp] theorem portSetLevel_badparam (s : State) (q : Word) (lv : Level) : (s.portSetLevel q lv).badparam = s.badparam := by simp [State.portSetLevel]
@[simp] theorem portSetLevel_cidxv (s : State) (q : Word) (lv : Level) : (s.portSetLevel q lv).cidxv = s.cidxv := by simp [State.portSetLevel]
@[simp] theorem portSetLevel_erridx (s : State) (q : Word) (lv : Level) : (s.portSetLevel q lv).erridx = s.erridx := by simp [State.portSetLevel]
@[simp] theorem portSetLevel_maxCodes (s : State) (q : Word) (lv : Level) : (s.portSetLevel q lv).maxCodes = s.maxCodes := by simp [State.portSetLevel]
@[simp] theorem portSetLevel_moves (s : State) (q : Word) (lv : Level) : (s.portSetLevel q lv).moves = s.moves := by simp [State.portSetLevel]
@[simp] theorem portSetLevel_okAnswers (s : State) (q : Word) (lv : Level) : (s.portSetLevel q lv).okAnswers = s.okAnswerTaken.okAnswers := by simp [State.portSetLevel]
@[simp] theorem portSetLevel_sleepAnswers (s : State) (q : Word) (lv : Level) : (s.portSetLevel q lv).sleepAnswers = s.sleepAnswers := by simp [State.portSetLevel]
@[simp] theorem portSetLevel_draws (s : State) (q : Word) (lv : Level) : (s.portSetLevel q lv).draws = s.okAnswerTaken.draws := by simp [State.portSetLevel]
@[simp] theorem portSetLevel_trace (s : State) (q : Word) (lv : Level) : (s.portSetLevel q lv).trace = s.trace ++ [.setLevel q lv s.okAnswer] := by simp [State.portSetLevel]
@[simp] theorem portSetLevel_runFrom (s : State) (q : Word) (lv : Level) : (s.portSetLevel q lv).runFrom = s.runFrom := by simp [State.portSetLevel]
@[simp] theorem portSetLevel_symOut (s : State) (q : Word) (lv : Level) : (s.portSetLevel q lv).symOut = s.symOut := by simp [State.portSetLevel]
@[simp] theorem portSetLevel_segOut (s : State) (q : Word) (lv : Level) : (s.portSetLevel q lv).segOut = s.segOut := by simp [State.portSetLevel]
@[simp] theorem portSetLevel_rdata (s : State) (q : Word) (lv : Level) : (s.portSetLevel q lv).rdata = s.rdata := by simp [State.portSetLevel]

/-! `portSleep` (R134). -/

@[simp] theorem portSleep_ncodes (s : State) (q : Word) (d : Dur) : (s.portSleep q d).ncodes = s.ncodes := by simp [State.portSleep]
@[simp] theorem portSleep_iterations (s : State) (q : Word) (d : Dur) : (s.portSleep q d).iterations = s.iterations := by simp [State.portSleep]
@[simp] theorem portSleep_pin (s : State) (q : Word) (d : Dur) : (s.portSleep q d).pin = s.pin := by simp [State.portSleep]
@[simp] theorem portSleep_pulselen (s : State) (q : Word) (d : Dur) : (s.portSleep q d).pulselen = s.pulselen := by simp [State.portSleep]
@[simp] theorem portSleep_bitlen (s : State) (q : Word) (d : Dur) : (s.portSleep q d).bitlen = s.bitlen := by simp [State.portSleep]
@[simp] theorem portSleep_codes (s : State) (q : Word) (d : Dur) : (s.portSleep q d).codes = s.codes := by simp [State.portSleep]
@[simp] theorem portSleep_st (s : State) (q : Word) (d : Dur) : (s.portSleep q d).st = s.st := by simp [State.portSleep]
@[simp] theorem portSleep_phase (s : State) (q : Word) (d : Dur) : (s.portSleep q d).phase = s.phase := by simp [State.portSleep]
@[simp] theorem portSleep_k (s : State) (q : Word) (d : Dur) : (s.portSleep q d).k = s.k := by simp [State.portSleep]
@[simp] theorem portSleep_r (s : State) (q : Word) (d : Dur) : (s.portSleep q d).r = s.r := by simp [State.portSleep]
@[simp] theorem portSleep_seg (s : State) (q : Word) (d : Dur) : (s.portSleep q d).seg = s.seg := by simp [State.portSleep]
@[simp] theorem portSleep_plan (s : State) (q : Word) (d : Dur) : (s.portSleep q d).plan = s.plan := by simp [State.portSleep]
@[simp] theorem portSleep_rem (s : State) (q : Word) (d : Dur) : (s.portSleep q d).rem = s.rem := by simp [State.portSleep]
@[simp] theorem portSleep_done (s : State) (q : Word) (d : Dur) : (s.portSleep q d).done = s.done := by simp [State.portSleep]
@[simp] theorem portSleep_owned (s : State) (q : Word) (d : Dur) : (s.portSleep q d).owned = s.owned := by simp [State.portSleep]
@[simp] theorem portSleep_level (s : State) (q : Word) (d : Dur) : (s.portSleep q d).level = s.level := by simp [State.portSleep]
@[simp] theorem portSleep_abortp (s : State) (q : Word) (d : Dur) : (s.portSleep q d).abortp = s.abortp := by simp [State.portSleep]
@[simp] theorem portSleep_result (s : State) (q : Word) (d : Dur) : (s.portSleep q d).result = s.result := by simp [State.portSleep]
@[simp] theorem portSleep_stage (s : State) (q : Word) (d : Dur) : (s.portSleep q d).stage = s.stage := by simp [State.portSleep]
@[simp] theorem portSleep_badparam (s : State) (q : Word) (d : Dur) : (s.portSleep q d).badparam = s.badparam := by simp [State.portSleep]
@[simp] theorem portSleep_cidxv (s : State) (q : Word) (d : Dur) : (s.portSleep q d).cidxv = s.cidxv := by simp [State.portSleep]
@[simp] theorem portSleep_erridx (s : State) (q : Word) (d : Dur) : (s.portSleep q d).erridx = s.erridx := by simp [State.portSleep]
@[simp] theorem portSleep_maxCodes (s : State) (q : Word) (d : Dur) : (s.portSleep q d).maxCodes = s.maxCodes := by simp [State.portSleep]
@[simp] theorem portSleep_moves (s : State) (q : Word) (d : Dur) : (s.portSleep q d).moves = s.moves := by simp [State.portSleep]
@[simp] theorem portSleep_okAnswers (s : State) (q : Word) (d : Dur) : (s.portSleep q d).okAnswers = s.okAnswers := by simp [State.portSleep]
@[simp] theorem portSleep_sleepAnswers (s : State) (q : Word) (d : Dur) : (s.portSleep q d).sleepAnswers = s.sleepAnswerTaken.sleepAnswers := by simp [State.portSleep]
@[simp] theorem portSleep_draws (s : State) (q : Word) (d : Dur) : (s.portSleep q d).draws = s.sleepAnswerTaken.draws := by simp [State.portSleep]
@[simp] theorem portSleep_trace (s : State) (q : Word) (d : Dur) : (s.portSleep q d).trace = s.trace ++ [.sleep q d (s.sleepAnswer d)] := by simp [State.portSleep]
@[simp] theorem portSleep_runFrom (s : State) (q : Word) (d : Dur) : (s.portSleep q d).runFrom = s.runFrom := by simp [State.portSleep]
@[simp] theorem portSleep_symOut (s : State) (q : Word) (d : Dur) : (s.portSleep q d).symOut = s.symOut := by simp [State.portSleep]
@[simp] theorem portSleep_segOut (s : State) (q : Word) (d : Dur) : (s.portSleep q d).segOut = s.segOut := by simp [State.portSleep]
@[simp] theorem portSleep_rdata (s : State) (q : Word) (d : Dur) : (s.portSleep q d).rdata = s.rdata := by simp [State.portSleep]

end Sys2Proof.Machine
end

