-- ==== Sys2Proof/Laws/Ops.lean ====
section
/-! SUPPORT. For each shared operation, what it can do, said once; and the steps of the engine by position. -/

namespace Sys2Proof.Machine

/-! Outcomes. -/

@[simp] theorem andThen_next (s : State) (f : State → Answer) : andThen (.next s) f = f s := rfl

@[simp] theorem andThen_fault (e : Fault) (f : State → Answer) : andThen (.fault e) f = .fault e := rfl

@[simp] theorem andThen_refused (e : Refusal) (f : State → Answer) : andThen (.refused e) f = .refused e := rfl

theorem andThen_eq_next {o : Answer} {f : State → Answer} {t : State} (h : andThen o f = .next t) :
    ∃ s, o = .next s ∧ f s = .next t := by
  cases o with
  | next s => exact ⟨s, rfl, h⟩
  | fault e => cases h
  | refused e => cases h

/-! Answers of the environment. -/

theorem okAnswerTaken_cases (s : State) :
    (∃ a rest, s.okAnswers = a :: rest ∧ s.okAnswer = a ∧ s.okAnswerTaken = { s with okAnswers := rest }) ∨
    (s.okAnswers = [] ∧ s.okAnswer = Config.portAnswer s.draws ∧ s.okAnswerTaken = { s with draws := s.draws + 1 }) := by
  unfold State.okAnswerTaken State.okAnswer
  cases h : s.okAnswers with
  | nil => exact .inr ⟨rfl, rfl, rfl⟩
  | cons a rest => exact .inl ⟨a, rest, rfl, rfl, rfl⟩

theorem sleepAnswerTaken_cases (s : State) (d : Dur) :
    (∃ a rest, s.sleepAnswers = a :: rest ∧ s.sleepAnswer d = a ∧ s.sleepAnswerTaken = { s with sleepAnswers := rest }) ∨
    (s.sleepAnswers = [] ∧ s.sleepAnswer d = freeRemaining s.draws d ∧
      s.sleepAnswerTaken = { s with draws := s.draws + 1 }) := by
  unfold State.sleepAnswerTaken State.sleepAnswer
  cases h : s.sleepAnswers with
  | nil => exact .inr ⟨rfl, rfl, rfl⟩
  | cons a rest => exact .inl ⟨a, rest, rfl, rfl, rfl⟩

/-- A free answer keeps the bound of R135. -/
theorem freeRemaining_le (n : Nat) (d : Dur) : freeRemaining n d ≤ d := by
  unfold freeRemaining
  split
  · assumption
  · exact BitVec.le_refl d

/-! Errors (R154). -/

theorem writeRecord_of_none {s : State} (h : s.result = .none) (e : ErrorInfo) :
    (s.writeRecord e).record = (e.cause, e.stage, e.badparam, e.codeIndex.isSome, e.codeIndex.getD 0) := by
  simp [State.writeRecord, State.record, h]

theorem writeRecord_of_error {s : State} (h : s.result ≠ .none) (e : ErrorInfo) : s.writeRecord e = s := by
  simp [State.writeRecord, h]

theorem raise_of_owned {s : State} (h : s.owned = true) (e : ErrorInfo) :
    s.raise e = (s.writeRecord e).goTo .releasing false := by
  simp [State.raise, State.endRun, h]

theorem raise_of_not_owned {s : State} (h : s.owned = false) (e : ErrorInfo) :
    s.raise e = { (s.writeRecord e).goTo .idle false with done := true, abortp := false } := by
  simp [State.raise, State.endRun, h]

/-- The configuration is valid exactly when none of the four operands is 0 (R12, R103). -/
theorem paramMask_eq_zero_iff (s : State) :
    paramMask s = 0 ↔ s.ncodes ≠ 0 ∧ s.iterations ≠ 0 ∧ s.bitlen ≠ 0 ∧ s.pulselen ≠ 0 := by
  have four : ∀ a b c d : Bool, (BitVec.ofBool a ++ BitVec.ofBool b ++ BitVec.ofBool c ++ BitVec.ofBool d : BitVec 4) = 0 ↔
      a = false ∧ b = false ∧ c = false ∧ d = false := by decide
  rw [paramMask, four]
  simp only [beq_eq_false_iff_ne, ne_eq]

/-! The port trace of the last run (R9). -/

/-- The observed trace is a matter of the trace and of where the last run begins in it. -/
theorem runTrace_congr {s t : State} (ht : t.trace = s.trace) (hf : t.runFrom = s.runFrom) : t.runTrace = s.runTrace := by
  rw [State.runTrace, State.runTrace, ht, hf]

/-- A transaction issued in a run is appended to that run's trace. -/
theorem runTrace_append {s t : State} {x : Transaction} (hs : s.runFrom ≤ s.trace.length)
    (ht : t.trace = s.trace ++ [x]) (hf : t.runFrom = s.runFrom) : t.runTrace = s.runTrace ++ [x] := by
  rw [State.runTrace, State.runTrace, ht, hf, List.drop_append_of_le_length hs]

/-- An accepted START begins with no transaction. -/
@[simp] theorem runTrace_clearRun (s : State) : s.clearRun.runTrace = [] := List.drop_length

/-- A reset leaves no run to observe. -/
@[simp] theorem runTrace_toReset (s : State) : s.toReset.runTrace = [] := List.drop_length

/-! START in IDLE (R103). -/

theorem execTransmit_of_valid {s : State} (hi : s.st = .idle) (h : paramMask s = 0) :
    execTransmit s = .next (s.clearRun.goTo .acquiringPin false) := by
  simp only [execTransmit, startStep, if_pos hi, if_pos h]

theorem execTransmit_of_invalid {s : State} (hi : s.st = .idle) (h : paramMask s ≠ 0) :
    execTransmit s =
      .next (s.clearRun.raise ⟨.invalidParameter, stageOfMask (paramMask s), paramMask s, none⟩) := by
  simp only [execTransmit, startStep, if_pos hi, if_neg h]

/-! Positions. -/

@[simp] theorem position_goTo (s : State) (q : SeqState) (b : Bool) : (s.goTo q b).position = positionOf q b := rfl

theorem position_eq (s : State) : s.position = positionOf s.st s.phase := rfl

theorem position_idle_iff (s : State) : s.position = .idle ↔ s.st = .idle := by
  rw [position_eq]; cases s.st <;> cases s.phase <;> simp [positionOf]

theorem position_acq_iff (s : State) : s.position = .acq ↔ s.st = .acquiringPin ∧ s.phase = false := by
  rw [position_eq]; cases s.st <;> cases s.phase <;> simp [positionOf]

theorem position_initLow_iff (s : State) : s.position = .initLow ↔ s.st = .acquiringPin ∧ s.phase = true := by
  rw [position_eq]; cases s.st <;> cases s.phase <;> simp [positionOf]

theorem position_encoding_iff (s : State) : s.position = .encoding ↔ s.st = .encoding := by
  rw [position_eq]; cases s.st <;> cases s.phase <;> simp [positionOf]

theorem position_drive_iff (s : State) : s.position = .drive ↔ s.st = .transmitting ∧ s.phase = false := by
  rw [position_eq]; cases s.st <;> cases s.phase <;> simp [positionOf]

theorem position_wait_iff (s : State) : s.position = .wait ↔ s.st = .transmitting ∧ s.phase = true := by
  rw [position_eq]; cases s.st <;> cases s.phase <;> simp [positionOf]

theorem position_finalLow_iff (s : State) : s.position = .finalLow ↔ s.st = .releasing ∧ s.phase = false := by
  rw [position_eq]; cases s.st <;> cases s.phase <;> simp [positionOf]

theorem position_rel_iff (s : State) : s.position = .rel ↔ s.st = .releasing ∧ s.phase = true := by
  rw [position_eq]; cases s.st <;> cases s.phase <;> simp [positionOf]

/-! The engine's step by position. -/

theorem engineStep_idle {s : State} (h : s.position = .idle) : engineStep s = .next s := by
  simp [engineStep, portOperation, h]

theorem engineStep_acq {s : State} (h : s.position = .acq) : engineStep s = exec (.acquire s.pin) s := by
  simp [engineStep, portOperation, h]

theorem engineStep_initLow {s : State} (h : s.position = .initLow) : engineStep s = exec (.setLevel s.pin .low) s := by
  simp [engineStep, portOperation, h]

theorem engineStep_encoding {s : State} (h : s.position = .encoding) : engineStep s = encodingStep s := by
  simp [engineStep, portOperation, h]

theorem engineStep_drive {s : State} {g : Segment} (h : s.position = .drive) (hg : s.segment = some g) :
    engineStep s = exec (.setLevel s.pin g.level) s := by
  simp [engineStep, portOperation, h, hg]

theorem engineStep_drive_none {s : State} (h : s.position = .drive) (hg : s.segment = none) :
    engineStep s = .fault .planIndexOutOfRange := by
  simp [engineStep, portOperation, h, hg]

theorem engineStep_wait {s : State} (h : s.position = .wait) : engineStep s = exec (.sleep s.pin s.rem) s := by
  simp [engineStep, portOperation, h]

theorem engineStep_finalLow {s : State} (h : s.position = .finalLow) :
    engineStep s = exec (.setLevel s.pin .low) s := by
  simp [engineStep, portOperation, h]

theorem engineStep_rel {s : State} (h : s.position = .rel) : engineStep s = exec (.release s.pin) s := by
  simp [engineStep, portOperation, h]

/-! The moves of a step. -/

theorem step_of_no_move {s : State} (h : s.moves = []) : step s = engineStep s := by simp [step, h]

theorem step_of_move {s : State} {m : Slot} {rest : List Slot} (h : s.moves = m :: rest) :
    step s = moveStep m { s with moves := rest } := by simp [step, h]

/-- Every step is one move of a state that differs from `s` in its moves at most. -/
theorem step_is_move (s : State) : ∃ m ms, step s = moveStep m { s with moves := ms } := by
  cases h : s.moves with
  | nil => exact ⟨.engine, [], by rw [step_of_no_move h, ← h]; rfl⟩
  | cons m rest => exact ⟨m, rest, step_of_move h⟩

/-! What each meaning can do: if it answers `next t`, then one of these holds. -/

theorem execSleep_cases {q : Word} {d : Dur} {s t : State} (h : execSleep q d s = .next t) :
    s.sleepAnswer d ≤ d ∧
    ((s.position ≠ .wait ∧ t = s.portSleep q d) ∨
      (s.position = .wait ∧ s.sleepAnswer d ≠ 0 ∧ t = { s.portSleep q d with rem := s.sleepAnswer d }) ∨
      (s.position = .wait ∧ s.sleepAnswer d = 0 ∧ t = afterWait { s.portSleep q d with rem := 0 })) := by
  unfold execSleep at h
  split at h
  · rename_i hle
    refine ⟨hle, ?_⟩
    by_cases hw : s.position = .wait
    · by_cases h0 : s.sleepAnswer d = 0
      · simp only [hw, h0, if_true] at h
        exact .inr (.inr ⟨hw, h0, by cases h; rfl⟩)
      · simp only [hw, h0, if_false] at h
        exact .inr (.inl ⟨hw, h0, by cases h; rfl⟩)
    · refine .inl ⟨hw, ?_⟩
      revert h
      cases hp : s.position <;> simp_all
  · cases h

/-- The four ends of a wait (R109). -/
theorem afterWait_cases (s : State) :
    (s.seg.toNat < 2 * s.bitlen.toNat + 1 ∧ afterWait s = { s with seg := s.seg + 1, phase := false }) ∨
    (2 * s.bitlen.toNat + 1 ≤ s.seg.toNat ∧ s.r.toNat + 1 < s.iterations.toNat ∧
      afterWait s = { s with seg := 0, r := s.r + 1, phase := false }) ∨
    (2 * s.bitlen.toNat + 1 ≤ s.seg.toNat ∧ s.iterations.toNat ≤ s.r.toNat + 1 ∧ s.k.toNat + 1 < s.ncodes.toNat ∧
      afterWait s = { s with seg := 0, r := 0, k := s.k + 1, st := .encoding, phase := false }) ∨
    (2 * s.bitlen.toNat + 1 ≤ s.seg.toNat ∧ s.iterations.toNat ≤ s.r.toNat + 1 ∧ s.ncodes.toNat ≤ s.k.toNat + 1 ∧
      afterWait s = { s with seg := 0, r := 0, st := .releasing, phase := false }) := by
  unfold afterWait
  split
  · exact .inl ⟨‹_›, rfl⟩
  · split
    · exact .inr (.inl ⟨by omega, ‹_›, rfl⟩)
    · split
      · exact .inr (.inr (.inl ⟨by omega, by omega, ‹_›, rfl⟩))
      · exact .inr (.inr (.inr ⟨by omega, by omega, by omega, rfl⟩))

/-- The ENCODING step: it acts on a pending abort, or raises for a bit or pulse length of 0, or takes the plan of
`CODE[k]` (R106). -/
theorem encodingStep_cases {s t : State} (h : encodingStep s = .next t) :
    (s.abortp = true ∧ t = s.raise (abortError s.k)) ∨
    (s.abortp = false ∧ s.bitlen = 0 ∧ t = s.raise ⟨.invalidParameter, .encode, 0b0010, none⟩) ∨
    (∃ c, s.abortp = false ∧ s.bitlen ≠ 0 ∧ s.pulselen = 0 ∧ memRead s.codes s.k.toNat = some c ∧
      t = { s with symOut := encodeCode c.toNat s.bitlen.toNat }.raise ⟨.invalidParameter, .schedule, 0b0001, none⟩) ∨
    (∃ c, s.abortp = false ∧ s.bitlen ≠ 0 ∧ s.pulselen ≠ 0 ∧ memRead s.codes s.k.toNat = some c ∧
      t = { s with plan := planOf c s.bitlen s.pulselen, symOut := [], segOut := [], r := 0, seg := 0 }.goTo
        .transmitting false) := by
  unfold encodingStep at h
  by_cases ha : s.abortp = true
  · rw [if_pos (by simp [Config.hasAbort, ha])] at h
    exact .inl ⟨ha, by cases h; rfl⟩
  · rw [if_neg (by simp [ha])] at h
    have ha : s.abortp = false := by simpa using ha
    refine .inr ?_
    split at h
    · cases h
    · rename_i c hc
      simp only [exec, execEncode] at h
      by_cases hb : s.bitlen = 0
      · rw [if_pos hb, andThen_next, if_pos hb] at h
        exact .inl ⟨ha, hb, by cases h; rfl⟩
      · rw [if_neg hb, andThen_next, if_neg hb, execSchedule] at h
        by_cases hp : s.pulselen = 0
        · rw [if_pos hp, andThen_next, if_pos hp] at h
          exact .inr (.inl ⟨c, ha, hb, hp, hc, by cases h; rfl⟩)
        · rw [if_neg hp, andThen_next, if_neg hp] at h
          exact .inr (.inr ⟨c, ha, hb, hp, hc, by cases h; rfl⟩)

/-! What the engine leaves: where the last run begins in the trace (R9), and the moves to come. -/

theorem execSetLevel_keeps_run_and_moves {q : Word} {lv : Level} {s t : State} (h : execSetLevel q lv s = .next t) :
    t.runFrom = s.runFrom ∧ t.moves = s.moves := by
  simp only [execSetLevel] at h
  cases hp : s.position <;> cases hg : s.segment <;> simp only [hp, hg] at h <;> cases h
  all_goals split <;> simp

theorem afterWait_keeps_run_and_moves (s : State) :
    (afterWait s).runFrom = s.runFrom ∧ (afterWait s).moves = s.moves := by
  rcases afterWait_cases s with ⟨-, e⟩ | ⟨-, -, e⟩ | ⟨-, -, -, e⟩ | ⟨-, -, -, e⟩ <;> rw [e] <;> exact ⟨rfl, rfl⟩

theorem engineStep_keeps_run_and_moves {s t : State} (h : engineStep s = .next t) :
    t.runFrom = s.runFrom ∧ t.moves = s.moves := by
  cases hp : s.position with
  | idle => rw [engineStep_idle hp] at h; cases h; exact ⟨rfl, rfl⟩
  | acq =>
    rw [engineStep_acq hp] at h
    simp only [exec, execAcquire, if_pos hp] at h
    split at h <;> cases h <;> simp
  | initLow => exact execSetLevel_keeps_run_and_moves (engineStep_initLow hp ▸ h)
  | encoding =>
    rw [engineStep_encoding hp] at h
    rcases encodingStep_cases h with ⟨-, rfl⟩ | ⟨-, -, rfl⟩ | ⟨_, -, -, -, -, rfl⟩ | ⟨_, -, -, -, -, rfl⟩ <;> simp
  | drive =>
    cases hg : s.segment with
    | none => rw [engineStep_drive_none hp hg] at h; cases h
    | some g => exact execSetLevel_keeps_run_and_moves (engineStep_drive hp hg ▸ h)
  | wait =>
    rw [engineStep_wait hp] at h
    rcases (execSleep_cases h).2 with ⟨-, rfl⟩ | ⟨-, -, rfl⟩ | ⟨-, -, rfl⟩
    · simp
    · simp
    · rw [(afterWait_keeps_run_and_moves _).1, (afterWait_keeps_run_and_moves _).2]
      simp
  | finalLow => exact execSetLevel_keeps_run_and_moves (engineStep_finalLow hp ▸ h)
  | rel =>
    rw [engineStep_rel hp] at h
    simp only [exec, execRelease, if_pos hp] at h
    cases h
    simp

/-! Durations and plans (R68, R72, R97). -/

/-- A product of a unit count of R34 and a pulse length fits `DURW` bits (R72). -/
theorem duration_toNat {u : Nat} (hu : u ≤ 31) (p : Word) : (duration u p).toNat = u * p.toNat := by
  have hp : p.toNat < 2 ^ 32 := p.isLt
  have : u * p.toNat ≤ 31 * p.toNat := Nat.mul_le_mul_right _ hu
  rw [duration, BitVec.toNat_ofNat]
  exact Nat.mod_eq_of_lt (by omega)

theorem encodeCode_length (c b : Nat) : (encodeCode c b).length = b := by simp [encodeCode]

theorem symbolSegments_length (p : Word) (v : Symbol) : (symbolSegments p v).length = 2 := by cases v <;> rfl

theorem schedulePlan_length (vs : List Symbol) (p : Word) : (schedulePlan vs p).length = 2 * vs.length + 2 := by
  have : ∀ vs : List Symbol, (vs.flatMap (symbolSegments p)).length = 2 * vs.length := by
    intro vs
    induction vs with
    | nil => rfl
    | cons v vs ih => rw [List.flatMap_cons, List.length_append, symbolSegments_length, ih, List.length_cons]; omega
  rw [schedulePlan, List.length_append, this]
  rfl

theorem planOf_length (c b p : Word) : (planOf c b p).length = 2 * b.toNat + 2 := by
  rw [planOf, schedulePlan_length, encodeCode_length]

end Sys2Proof.Machine
end

