-- ==== Sys2Proof/Laws/PerInstr.lean ====
section
/-! SUPPORT. Facts about the operations as syntax, one lemma per constructor: an encoded operation decodes to itself. -/

namespace Sys2Proof

/-! The fields of a PORT request read back what was put there (R67). -/

/-- Each bit of a PORT request stands in the field its place belongs to. -/
theorem portRequest_getLsbD (op : BitVec 2) (pin : Word) (arg : Dur) (i : Nat) :
    (portRequest op pin arg).getLsbD i =
      if i < 2 then op.getLsbD i else if i < 34 then pin.getLsbD (i - 2) else arg.getLsbD (i - 34) := by
  show (arg ++ (pin ++ op)).getLsbD i = _
  rw [BitVec.getLsbD_append, BitVec.getLsbD_append]
  split_ifs <;> first | rfl | omega

theorem portOp_portRequest (op : BitVec 2) (pin : Word) (arg : Dur) : portOp (portRequest op pin arg) = op := by
  ext i hi
  rw [portOp, BitVec.getElem_extractLsb', portRequest_getLsbD, if_pos (by omega), BitVec.getLsbD_eq_getElem (by omega)]
  congr 1
  omega

theorem portPin_portRequest (op : BitVec 2) (pin : Word) (arg : Dur) : portPin (portRequest op pin arg) = pin := by
  ext i hi
  rw [portPin, BitVec.getElem_extractLsb', portRequest_getLsbD, if_neg (by omega), if_pos (by omega),
    BitVec.getLsbD_eq_getElem (by omega)]
  congr 1
  omega

theorem portArg_portRequest (op : BitVec 2) (pin : Word) (arg : Dur) : portArg (portRequest op pin arg) = arg := by
  ext i hi
  rw [portArg, BitVec.getElem_extractLsb', portRequest_getLsbD, if_neg (by omega), if_neg (by omega),
    BitVec.getLsbD_eq_getElem (by omega)]
  congr 1
  omega

end Sys2Proof

/-- An operation that a bit pattern selects is the one that pattern decodes to. -/
def Sys2Proof.Laws.RoundTrip.Statement (i : Sys2Proof.Instr) : Prop :=
  ∀ e, Sys2Proof.encode i = some e → Sys2Proof.decode e = .ok i

open Sys2Proof

theorem Sys2Proof.Laws.RoundTrip.transmit : Laws.RoundTrip.Statement .transmit := by
  rintro _ ⟨⟩; rfl

theorem Sys2Proof.Laws.RoundTrip.abort : Laws.RoundTrip.Statement .abort := by
  rintro _ ⟨⟩; rfl

theorem Sys2Proof.Laws.RoundTrip.encode (c b : Word) : Laws.RoundTrip.Statement (.encode c b) := by
  rintro _ ⟨⟩

theorem Sys2Proof.Laws.RoundTrip.schedule (vs : List Symbol) (p : Word) :
    Laws.RoundTrip.Statement (.schedule vs p) := by
  rintro _ ⟨⟩

theorem Sys2Proof.Laws.RoundTrip.sym0 (p : Word) : Laws.RoundTrip.Statement (.sym0 p) := by
  rintro _ ⟨⟩; rfl

theorem Sys2Proof.Laws.RoundTrip.sym1 (p : Word) : Laws.RoundTrip.Statement (.sym1 p) := by
  rintro _ ⟨⟩; rfl

theorem Sys2Proof.Laws.RoundTrip.sync (p : Word) : Laws.RoundTrip.Statement (.sync p) := by
  rintro _ ⟨⟩

theorem Sys2Proof.Laws.RoundTrip.setLevel (q : Word) (lv : Level) : Laws.RoundTrip.Statement (.setLevel q lv) := by
  rintro _ ⟨⟩
  cases lv <;> simp [decode, decodePort, portOp_portRequest, portPin_portRequest, portArg_portRequest, Level.bit, levelOfBit]

theorem Sys2Proof.Laws.RoundTrip.sleep (q : Word) (d : Dur) : Laws.RoundTrip.Statement (.sleep q d) := by
  rintro _ ⟨⟩
  simp [decode, decodePort, portOp_portRequest, portPin_portRequest, portArg_portRequest]

theorem Sys2Proof.Laws.RoundTrip.acquire (q : Word) : Laws.RoundTrip.Statement (.acquire q) := by
  rintro _ ⟨⟩
  simp [decode, decodePort, portOp_portRequest, portPin_portRequest]

theorem Sys2Proof.Laws.RoundTrip.release (q : Word) : Laws.RoundTrip.Statement (.release q) := by
  rintro _ ⟨⟩
  simp [decode, decodePort, portOp_portRequest, portPin_portRequest]

theorem Sys2Proof.Laws.RoundTrip.nop : Laws.RoundTrip.Statement .nop := by
  rintro _ ⟨⟩; rfl

theorem Sys2Proof.Laws.RoundTrip.cmdReserved : Laws.RoundTrip.Statement .cmdReserved := by
  rintro _ ⟨⟩; rfl
end

