-- ==== Sys2Proof/Laws/Run.lean ====
section
/-! SUPPORT. Runs of several steps, put together from single steps. -/

namespace Sys2Proof.Machine

/-- A run of no step answers the state it starts from. -/
@[simp] theorem run_zero (s : State) : runFor 0 s = .next s := rfl

/-- A run goes on from where its first step leads. -/
theorem run_succ_of_next {n : Nat} {s t : State} (h : step s = .next t) :
    runFor (n + 1) s = runFor n t := by
  have unfolded := Host.Core.run.eq_2 Sys2Proof.core s n
  have hs : Sys2Proof.core.step s = .next t := h
  rw [hs] at unfolded
  exact unfolded

/-- A run whose first step faults is that fault. -/
theorem run_succ_of_fault {n : Nat} {s : State} {e : Fault} (h : step s = .fault e) :
    runFor (n + 1) s = .fault e := by
  have unfolded := Host.Core.run.eq_2 Sys2Proof.core s n
  have hs : Sys2Proof.core.step s = .fault e := h
  rw [hs] at unfolded
  exact unfolded

/-- A run whose first step is refused is that refusal. -/
theorem run_succ_of_refused {n : Nat} {s : State} {e : Refusal} (h : step s = .refused e) :
    runFor (n + 1) s = .refused e := by
  have unfolded := Host.Core.run.eq_2 Sys2Proof.core s n
  have hs : Sys2Proof.core.step s = .refused e := h
  rw [hs] at unfolded
  exact unfolded

/-- A run that answers a next state has made its first step, and the rest of its steps from there. -/
theorem run_succ_eq_next {n : Nat} {s t : State} (h : runFor (n + 1) s = .next t) :
    ∃ u, step s = .next u ∧ runFor n u = .next t := by
  cases hs : step s with
  | next u => exact ⟨u, rfl, by rw [← run_succ_of_next hs]; exact h⟩
  | fault e => rw [run_succ_of_fault hs] at h; cases h
  | refused e => rw [run_succ_of_refused hs] at h; cases h

/-- A run of one step is that step. -/
theorem run_one (s : State) : runFor 1 s = step s := by
  cases hs : step s with
  | next u => exact run_succ_of_next hs
  | fault e => exact run_succ_of_fault hs
  | refused e => exact run_succ_of_refused hs

/-- A run of `n + m` steps is a run of `m` steps from where the first `n` lead. -/
theorem run_add {n m : Nat} {s t : State} (h : runFor n s = .next t) :
    runFor (n + m) s = runFor m t := by
  induction n generalizing s with
  | zero =>
    cases h
    rw [Nat.zero_add]
  | succ n ih =>
    obtain ⟨u, hs, hu⟩ := run_succ_eq_next h
    rw [Nat.add_right_comm, run_succ_of_next hs, ih hu]

/-- A run of the engine alone does not move where the last run begins in the trace (R9). -/
theorem run_keeps_runFrom {n : Nat} {s t : State} (hm : s.moves = []) (h : runFor n s = .next t) :
    t.runFrom = s.runFrom := by
  induction n generalizing s with
  | zero => cases h; rfl
  | succ n ih =>
    obtain ⟨u, hs, hu⟩ := run_succ_eq_next h
    rw [step_of_no_move hm] at hs
    obtain ⟨hf, hu_moves⟩ := engineStep_keeps_run_and_moves hs
    rw [ih (hu_moves.trans hm) hu, hf]

end Sys2Proof.Machine
end

