-- ==== Sys2Proof/Tests/Slice0.lean ====
section
/-! SUPPORT. Tests: the operand checks, words written out from the spec's encodings, single steps against the worked
examples of 95_test_vectors.md, and for every statement with hypotheses a state and operands that meet them. -/

namespace Sys2Proof.Tests

open Sys2Proof.Machine

/-! States the tests start from. -/

/-- A machine in IDLE with room for two codes, configured to send code 1 in 1 bit at 190 microseconds,
once, on pin 17. -/
def idleMachine : State :=
  { State.reset with
    maxCodes := 2, ncodes := 1, iterations := 1, pin := 17, pulselen := 190, bitlen := 1, codes := [(0, 1)] }

/-- The plan of code 1 in 1 bit at 190 microseconds. -/
def planOfOne : List Segment := [⟨.high, 570⟩, ⟨.low, 190⟩, ⟨.high, 190⟩, ⟨.low, 5890⟩]

/-- The same machine while a run is in progress, at a position after ACQ. -/
def runningMachine (st : SeqState) (phase : Bool) : State :=
  { idleMachine with st := st, phase := phase, owned := true, plan := planOfOne, trace := [.acquire 17 true] }

/-- What one field of the next state is, if there is a next state. -/
def after {α : Type} (o : Answer) (f : State → α) : Option α :=
  match o with
  | .next s => some (f s)
  | .fault _ => none
  | .refused _ => none

/-- The fault an answer is, if it is one. -/
def faultOf (o : Answer) : Option Fault :=
  match o with
  | .fault e => some e
  | .next _ => none
  | .refused _ => none

/-- The refusal an answer is, if it is one. -/
def refusalOf (o : Answer) : Option Refusal :=
  match o with
  | .refused e => some e
  | .next _ => none
  | .fault _ => none

/-- The operation a bit pattern selects, if it selects one. -/
def decoded (e : Encoded) : Option Instr :=
  match decode e with
  | .ok i => some i
  | .error _ => none

/-! Ill-formed operations are refused, and their least well-formed neighbours are not (R67, R92 to R94, R134). -/

theorem test_wellFormed_sleep : Instr.wellFormed (.sleep 17 0) = false ∧ Instr.wellFormed (.sleep 17 1) = true := by decide

theorem test_wellFormed_sym0 : Instr.wellFormed (.sym0 0) = false ∧ Instr.wellFormed (.sym0 1) = true := by decide

theorem test_wellFormed_sym1 : Instr.wellFormed (.sym1 0) = false ∧ Instr.wellFormed (.sym1 1) = true := by decide

theorem test_wellFormed_sync : Instr.wellFormed (.sync 0) = false ∧ Instr.wellFormed (.sync 1) = true := by decide

/-! Words written out bit by bit (R31, R63, R65, R67; the PORT requests of 95_test_vectors.md section 3.4). -/

theorem test_decode_nop : decode (.cmd 0b11111111111111111111111111111100#32) = .ok .nop := by decide

theorem test_decode_transmit : decode (.cmd 0b00000000000000000000000000000001#32) = .ok .transmit := by decide

theorem test_decode_abort : decode (.cmd 0b10000000000000000000000000000110#32) = .ok .abort := by decide

theorem test_decode_cmdReserved : decode (.cmd 0b00000000000000000000000000000011#32) = .ok .cmdReserved := by decide

theorem test_decode_sym0 : decode (.symbol 0b0#1 190) = .ok (.sym0 190) := by decide

theorem test_decode_sym1 : decode (.symbol 0b1#1 190) = .ok (.sym1 190) := by decide

theorem test_decode_setLevel_high :
    decode (.port (0b0000000000000000000000000000000000001#37 ++ 0b00000000000000000000000000010001#32 ++ 0b00#2)) =
      .ok (.setLevel 17 .high) := by decide

theorem test_decode_setLevel_low :
    decode (.port (0b0000000000000000000000000000000000000#37 ++ 0b00000000000000000000000000010001#32 ++ 0b00#2)) =
      .ok (.setLevel 17 .low) := by decide

theorem test_decode_setLevel_bad_level :
    decode (.port (0b0000000000000000000000000000000000010#37 ++ 0b00000000000000000000000000010001#32 ++ 0b00#2)) =
      .error .levelArgNotOneBit := by decide

theorem test_decode_sleep :
    decode (.port (0b0000000000000000000000001011100000010#37 ++ 0b00000000000000000000000000010001#32 ++ 0b01#2)) =
      .ok (.sleep 17 5890) := by decide

theorem test_decode_acquire :
    decode (.port (0b0000000000000000000000000000000000000#37 ++ 0b00000000000000000000000000010001#32 ++ 0b10#2)) =
      .ok (.acquire 17) := by decide

theorem test_decode_release :
    decode (.port (0b0000000000000000000000000000000000000#37 ++ 0b00000000000000000000000000010001#32 ++ 0b11#2)) =
      .ok (.release 17) := by decide

/-- ENCODE, SCHEDULE and SYNC are selected by no bit pattern (R66). -/
theorem test_encode_none : encode (.encode 5 4) = none ∧ encode (.schedule [true] 190) = none ∧ encode (.sync 190) = none := by
  decide

theorem test_decodeTableWord :
    decodeTableWord 32 1 = some .transmit ∧ decodeTableWord 32 2 = some .abort ∧ decodeTableWord 32 0 = some .nop ∧
      decodeTableWord 32 3 = some .cmdReserved ∧ decodeTableWord 1 0 = some (.sym0 0) ∧
      decodeTableWord 1 1 = some (.sym1 0) ∧ decodeTableWord 2 0 = some (.setLevel 0 .low) ∧
      decodeTableWord 8 1 = some (.sleep 0 0) ∧ decodeTableWord 8 2 = some (.acquire 0) ∧
      decodeTableWord 8 3 = some (.release 0) ∧ decodeTableWord 16 0 = none := by decide

/-! Single operations and steps against 95_test_vectors.md. -/

/-- E1: encode(5, 4). -/
theorem test_encode_five : after (exec (.encode 5 4) State.reset) State.symOut = some [false, true, false, true] := by decide

/-- E14 in small: bits at the bit length and above are dropped; 13 = 1101 in 3 bits. -/
theorem test_encode_truncates : after (exec (.encode 13 3) State.reset) State.symOut = some [true, false, true] := by decide

/-- S2: schedule([0,1,0,1], 190). -/
theorem test_schedule_s2 :
    after (exec (.schedule [false, true, false, true] 190) State.reset) State.segOut =
      some [⟨.high, 190⟩, ⟨.low, 570⟩, ⟨.high, 570⟩, ⟨.low, 190⟩, ⟨.high, 190⟩, ⟨.low, 570⟩, ⟨.high, 570⟩, ⟨.low, 190⟩,
        ⟨.high, 190⟩, ⟨.low, 5890⟩] := by decide

/-- V15: schedule([], 0) is InvalidParameter, stage schedule. -/
theorem test_schedule_rejects :
    after (exec (.schedule [] 0) State.reset) (fun s => (s.result, s.stage, s.segOut)) =
      some (.invalidParameter, .schedule, []) := by decide

/-- V1. -/
theorem test_sym0 : after (exec (.sym0 190) State.reset) State.segOut = some [⟨.high, 190⟩, ⟨.low, 570⟩] := by decide

/-- V2. -/
theorem test_sym1 : after (exec (.sym1 190) State.reset) State.segOut = some [⟨.high, 570⟩, ⟨.low, 190⟩] := by decide

/-- V5: the longest duration does not overflow. -/
theorem test_sync_longest :
    after (exec (.sync 4294967295) State.reset) State.segOut = some [⟨.high, 4294967295⟩, ⟨.low, 133143986145⟩] := by decide

/-- X6: START straight after reset. -/
theorem test_start_after_reset :
    after (exec .transmit State.reset) (fun s => (statusWord s, s.trace)) = some (0x0003D120#32, []) := by decide

/-- P1 after START: ACQUIRING_PIN at ACQ. -/
theorem test_start_valid : after (exec .transmit idleMachine) statusWord = some 0x00000011#32 := by decide

/-- The state in which P4 ends, its one transaction a failed ACQUIRE, and the host's next START (P12). -/
def afterFailedRun : State :=
  { idleMachine with
    done := true, result := .hardwareUnavailable, stage := .acquire, trace := [.acquire 17 false]
    moves := [.host (.write 0 1)] }

/-- P4: what is observed of the failed run. -/
theorem test_observe_failed_run :
    afterFailedRun.observe = ([.acquire 17 false], .failure .hardwareUnavailable .acquire 0 none) := by decide

/-- P12: the START of the second run leaves the first run's transaction in the whole trace and out of the observation. -/
theorem test_observe_second_run :
    after (step afterFailedRun) (fun s => (s.trace, s.observe)) = some ([.acquire 17 false], ([], .inProgress)) := by decide

/-- The ABORT write of P6c adds 0x00080000 to STATUS. -/
theorem test_abort_in_run :
    after (exec .abort { idleMachine with st := .acquiringPin }) statusWord = some 0x00080011#32 := by decide

theorem test_abort_in_idle : after (exec .abort idleMachine) (fun s => s) = some idleMachine := by decide

theorem test_nop : after (exec .nop idleMachine) (fun s => s) = some idleMachine := by decide

theorem test_cmdReserved : after (exec .cmdReserved idleMachine) (fun s => s) = some idleMachine := by decide

/-- P4: ACQUIRE fails; STATUS 0x00001A20, one transaction. -/
theorem test_acquire_fail :
    after (step { idleMachine with st := .acquiringPin, okAnswers := [false] }) (fun s => (statusWord s, s.trace)) =
      some (0x00001A20#32, [.acquire 17 false]) := by decide

/-- P1 step 1: ACQUIRE succeeds; STATUS 0x00000059. -/
theorem test_acquire_ok :
    after (step { idleMachine with st := .acquiringPin, okAnswers := [true] }) statusWord = some 0x00000059#32 := by decide

/-- P1 step 4: DRIVE of a HIGH segment; STATUS 0x000000DB and REM the duration. -/
theorem test_setLevel_drive :
    after (step { runningMachine .transmitting false with okAnswers := [true] }) (fun s => (statusWord s, s.rem)) =
      some (0x000000DB#32, 570) := by decide

/-- R108: a failing SETLEVEL of a segment goes to the cleanup with the code index. -/
theorem test_setLevel_fail :
    after (step { runningMachine .transmitting false with okAnswers := [false] })
      (fun s => (s.st, s.stage, s.cidxv, s.erridx, s.level)) = some (.releasing, .transmit, true, 0, .low) := by decide

/-- P5: SLEEP(300) answered 120 leaves 120 to sleep, at the same position. -/
theorem test_sleep_early :
    after (step { runningMachine .transmitting true with rem := 300, sleepAnswers := [120] })
      (fun s => (s.rem, s.seg, s.phase, s.trace)) =
      some (120, 0, true, [.acquire 17 true, .sleep 17 300 120]) := by decide

/-- P1 step 23 in small: the last wait of the last repeat of the last code leads to RELEASING. -/
theorem test_sleep_last :
    after (step { runningMachine .transmitting true with seg := 3, rem := 5890, sleepAnswers := [0] })
      (fun s => (s.st, s.phase, s.k, s.r, s.seg)) = some (.releasing, false, 0, 0, 0) := by decide

/-- P1 step 25: RELEASE ends the run with STATUS 0x00000020. -/
theorem test_release :
    after (step (runningMachine .releasing true)) statusWord = some 0x00000020#32 := by decide

/-- P1 step 3: ENCODING takes the plan of the code. -/
theorem test_encoding_step :
    after (step { runningMachine .encoding false with plan := [] }) (fun s => (statusWord s, s.plan)) =
      some (0x00000053#32, planOfOne) := by decide

/-- P6: an abort pending at ENCODING of code 1 is Aborted with index 1. -/
theorem test_encoding_abort :
    after (step { runningMachine .encoding false with k := 1, abortp := true }) (fun s => (s.result, s.cidxv, s.erridx)) =
      some (.aborted, true, 1) := by decide

/-- U8: a written answer above the request is refused. -/
theorem test_sleep_refused :
    refusalOf (step { runningMachine .transmitting true with rem := 300, sleepAnswers := [301] }) =
      some .sleepAnswerTooLong := by decide

/-! Placed words run as the first step after reset. -/

theorem test_fetch_transmit : after (step (State.reset.withFetchWord 32 1)) statusWord = some 0x0003D120#32 := by decide

theorem test_fetch_sym1 :
    after (step (State.reset.withFetchWord 1 1)) State.plan = some [⟨.high, 3⟩, ⟨.low, 1⟩, ⟨.high, 1⟩, ⟨.low, 31⟩] := by
  decide

theorem test_fetch_release : after (step (State.reset.withFetchWord 8 3)) State.trace = some [.release 0] := by decide

/-! For every statement with hypotheses, a state and operands that meet them, one theorem for each clause. -/

theorem witness_StartValidatesAllFourOperands_valid :
    idleMachine.st = .idle ∧ idleMachine.ncodes ≠ 0 ∧ idleMachine.iterations ≠ 0 ∧ idleMachine.bitlen ≠ 0 ∧
      idleMachine.pulselen ≠ 0 := by decide

theorem witness_StartValidatesAllFourOperands_each_invalid :
    idleMachine.owned = false ∧ ({ idleMachine with ncodes := 0 } : State).ncodes = 0 ∧
      ({ idleMachine with iterations := 0 } : State).iterations = 0 ∧ ({ idleMachine with bitlen := 0 } : State).bitlen = 0 ∧
      ({ idleMachine with pulselen := 0 } : State).pulselen = 0 ∧ State.reset.st = .idle ∧ State.reset.owned = false ∧
      State.reset.ncodes = 0 := by decide

theorem witness_StartWhileBusyChangesNothing :
    (runningMachine .encoding false).st ≠ .idle := by decide

theorem witness_AbortOnlyLatchesTheRequest :
    (runningMachine .encoding false).st ≠ .idle ∧ idleMachine.st = .idle := by decide

theorem witness_EncodeYieldsTheBitsMsbFirst :
    (1 : Word) ≠ 0 ∧ 0 < (1 : Word).toNat := by decide

theorem witness_EncodeRejectsBitLengthZero :
    State.reset.result = .none ∧ State.reset.owned = false ∧ (runningMachine .encoding false).result = .none ∧
      (runningMachine .encoding false).owned = true ∧ ({ State.reset with result := .aborted } : State).result ≠ .none ∧
      ({ runningMachine .encoding false with result := .aborted } : State).owned = true := by decide

theorem witness_EncodeIgnoresBitsAboveTheBitLength :
    (1 : Word) ≠ 0 ∧ (5 : Word).toNat % 2 ^ (1 : Word).toNat = (1 : Word).toNat % 2 ^ (1 : Word).toNat := by decide

theorem witness_SymbolOperationsEmitTheirPatterns : (1 : Word) ≠ 0 ∧ (4294967295 : Word) ≠ 0 := by decide

theorem witness_ScheduleIsTheSymbolsInOrderThenSync :
    (1 : Word) ≠ 0 ∧ [false, true][0]? = some false ∧ [false, true][1]? = some true := by decide

theorem witness_PlanEntriesHaveTheClosedForm :
    (1 : Word) ≠ 0 ∧ 0 < (1 : Word).toNat ∧ (4294967295 : Word) ≠ 0 := by decide

theorem witness_PlansHaveTheTestableProperties :
    (1 : Word) ≠ 0 ∧ 1 ≤ [true].length ∧ 0 ≤ ([] : List Symbol).length := by decide

theorem witness_AnswersAreWrittenOrFree :
    ({ State.reset with okAnswers := [false] } : State).okAnswers = false :: [] ∧ State.reset.okAnswers = [] ∧
      ({ State.reset with sleepAnswers := [7] } : State).sleepAnswers = 7 :: [] ∧ State.reset.sleepAnswers = [] := by decide

theorem witness_SleepRefusesOnlyAnswersAboveTheRequest :
    (1 : Dur) < ({ State.reset with sleepAnswers := [2] } : State).sleepAnswer 1 ∧
      ({ State.reset with sleepAnswers := [1] } : State).sleepAnswer 1 ≤ (1 : Dur) ∧ State.reset.sleepAnswers = [] := by decide

theorem witness_AcquireStepTakesTheHandleOrEndsTheRun_ok :
    ({ idleMachine with st := .acquiringPin, okAnswers := [true] } : State).moves = [] ∧ ({ idleMachine with st := .acquiringPin, okAnswers := [true] } : State).st = .acquiringPin ∧ ({ idleMachine with st := .acquiringPin, okAnswers := [true] } : State).phase = false ∧
      ({ idleMachine with st := .acquiringPin, okAnswers := [true] } : State).owned = false ∧ ({ idleMachine with st := .acquiringPin, okAnswers := [true] } : State).result = .none ∧
      ({ idleMachine with st := .acquiringPin, okAnswers := [true] } : State).okAnswer = true := by decide

theorem witness_AcquireStepTakesTheHandleOrEndsTheRun_fail :
    ({ idleMachine with st := .acquiringPin, okAnswers := [false] } : State).moves = [] ∧ ({ idleMachine with st := .acquiringPin, okAnswers := [false] } : State).st = .acquiringPin ∧ ({ idleMachine with st := .acquiringPin, okAnswers := [false] } : State).phase = false ∧
      ({ idleMachine with st := .acquiringPin, okAnswers := [false] } : State).owned = false ∧ ({ idleMachine with st := .acquiringPin, okAnswers := [false] } : State).result = .none ∧
      ({ idleMachine with st := .acquiringPin, okAnswers := [false] } : State).okAnswer = false := by decide

theorem witness_InitLowStepLeadsToEncodingOrCleanup_ok :
    ({ runningMachine .acquiringPin true with okAnswers := [true] } : State).moves = [] ∧ ({ runningMachine .acquiringPin true with okAnswers := [true] } : State).st = .acquiringPin ∧ ({ runningMachine .acquiringPin true with okAnswers := [true] } : State).phase = true ∧
      ({ runningMachine .acquiringPin true with okAnswers := [true] } : State).owned = true ∧ ({ runningMachine .acquiringPin true with okAnswers := [true] } : State).result = .none ∧
      ({ runningMachine .acquiringPin true with okAnswers := [true] } : State).okAnswer = true := by decide

theorem witness_InitLowStepLeadsToEncodingOrCleanup_fail :
    ({ runningMachine .acquiringPin true with okAnswers := [false] } : State).moves = [] ∧ ({ runningMachine .acquiringPin true with okAnswers := [false] } : State).st = .acquiringPin ∧ ({ runningMachine .acquiringPin true with okAnswers := [false] } : State).phase = true ∧
      ({ runningMachine .acquiringPin true with okAnswers := [false] } : State).owned = true ∧ ({ runningMachine .acquiringPin true with okAnswers := [false] } : State).result = .none ∧
      ({ runningMachine .acquiringPin true with okAnswers := [false] } : State).okAnswer = false := by decide

theorem witness_EncodingStepAbortsOrTakesThePlan :
    (runningMachine .encoding false).moves = [] ∧ (runningMachine .encoding false).st = .encoding ∧
      (runningMachine .encoding false).owned = true ∧ (runningMachine .encoding false).result = .none ∧
      (runningMachine .encoding false).abortp = false ∧ memRead (runningMachine .encoding false).codes 0 = some 1 ∧
      (runningMachine .encoding false).bitlen ≠ 0 ∧ (runningMachine .encoding false).pulselen ≠ 0 ∧
      ({ runningMachine .encoding false with abortp := true } : State).abortp = true ∧
      memRead ({ runningMachine .encoding false with codes := [] } : State).codes 0 = none := by decide

theorem witness_DriveStepSetsTheSegmentLevel_ok :
    ({ runningMachine .transmitting false with okAnswers := [true] } : State).moves = [] ∧ ({ runningMachine .transmitting false with okAnswers := [true] } : State).st = .transmitting ∧ ({ runningMachine .transmitting false with okAnswers := [true] } : State).phase = false ∧
      ({ runningMachine .transmitting false with okAnswers := [true] } : State).owned = true ∧ ({ runningMachine .transmitting false with okAnswers := [true] } : State).result = .none ∧
      ({ runningMachine .transmitting false with okAnswers := [true] } : State).okAnswer = true ∧
      ({ runningMachine .transmitting false with okAnswers := [true] } : State).plan[0]? = some ⟨.high, 570⟩ := by decide

theorem witness_DriveStepSetsTheSegmentLevel_fail :
    ({ runningMachine .transmitting false with okAnswers := [false] } : State).moves = [] ∧ ({ runningMachine .transmitting false with okAnswers := [false] } : State).st = .transmitting ∧ ({ runningMachine .transmitting false with okAnswers := [false] } : State).phase = false ∧
      ({ runningMachine .transmitting false with okAnswers := [false] } : State).owned = true ∧ ({ runningMachine .transmitting false with okAnswers := [false] } : State).result = .none ∧
      ({ runningMachine .transmitting false with okAnswers := [false] } : State).okAnswer = false ∧
      ({ runningMachine .transmitting false with okAnswers := [false] } : State).plan[0]? = some ⟨.high, 570⟩ := by decide

theorem witness_WaitStepSleepsUntilNothingRemains :
    ({ runningMachine .transmitting true with rem := 1, sleepAnswers := [0] } : State).moves = [] ∧
      ({ runningMachine .transmitting true with rem := 1, sleepAnswers := [0] } : State).st = .transmitting ∧
      ({ runningMachine .transmitting true with rem := 1, sleepAnswers := [0] } : State).phase = true ∧
      ({ runningMachine .transmitting true with rem := 1, sleepAnswers := [0] } : State).sleepAnswer 1 = 0 ∧
      ({ runningMachine .transmitting true with rem := 1, sleepAnswers := [1] } : State).sleepAnswer 1 = 1 ∧
      (0 : Dur) ≤ 1 ∧ (1 : Dur) ≤ 1 := by decide

theorem witness_FinalLowStepAlwaysLeadsToRelease_ok :
    ({ runningMachine .releasing false with okAnswers := [true] } : State).moves = [] ∧ ({ runningMachine .releasing false with okAnswers := [true] } : State).st = .releasing ∧ ({ runningMachine .releasing false with okAnswers := [true] } : State).phase = false ∧
      ({ runningMachine .releasing false with okAnswers := [true] } : State).owned = true ∧ ({ runningMachine .releasing false with okAnswers := [true] } : State).result = .none ∧
      ({ runningMachine .releasing false with okAnswers := [true] } : State).okAnswer = true := by decide

theorem witness_FinalLowStepAlwaysLeadsToRelease_fail :
    ({ runningMachine .releasing false with okAnswers := [false] } : State).moves = [] ∧ ({ runningMachine .releasing false with okAnswers := [false] } : State).st = .releasing ∧ ({ runningMachine .releasing false with okAnswers := [false] } : State).phase = false ∧
      ({ runningMachine .releasing false with okAnswers := [false] } : State).owned = true ∧ ({ runningMachine .releasing false with okAnswers := [false] } : State).result = .none ∧
      ({ runningMachine .releasing false with okAnswers := [false] } : State).okAnswer = false := by decide

theorem witness_FinalLowStepAlwaysLeadsToRelease_second_error :
    ({ runningMachine .releasing false with okAnswers := [false], result := .aborted } : State).okAnswer = false ∧
      ({ runningMachine .releasing false with okAnswers := [false], result := .aborted } : State).result ≠ .none := by decide

theorem witness_ReleaseStepEndsTheRun :
    (runningMachine .releasing true).moves = [] ∧ (runningMachine .releasing true).st = .releasing ∧
      (runningMachine .releasing true).phase = true := by decide

theorem witness_IdleEngineChangesNothing :
    idleMachine.moves = [] ∧ idleMachine.st = .idle := by decide

theorem witness_PortOperationsLogOneTransaction :
    ¬ (idleMachine.st = .transmitting ∧ idleMachine.phase = false ∧ idleMachine.plan[idleMachine.seg.toNat]? = none) ∧
      ({ idleMachine with sleepAnswers := [5] } : State).sleepAnswer 5 ≤ (5 : Dur) := by decide

theorem witness_RaiseRecordsTheFirstErrorAndEndsTheRun :
    (runningMachine .encoding false).owned = true ∧ idleMachine.owned = false := by decide

theorem witness_HostReadsFollowTheRegisterMap :
    15 + idleMachine.maxCodes < 18 ∧ 0 < idleMachine.maxCodes ∧ memRead idleMachine.codes 0 = some 1 ∧
      1 < idleMachine.maxCodes ∧ memRead idleMachine.codes 1 = none := by decide

theorem witness_HostWritesInIdleAreReadBack :
    idleMachine.st = .idle ∧ (2 : Word).toNat ≤ idleMachine.maxCodes ∧ idleMachine.maxCodes < (3 : Word).toNat ∧
      17 < 16 + idleMachine.maxCodes ∧ 15 + idleMachine.maxCodes < 18 := by decide

theorem witness_HostWritesWhileBusyAreLost :
    ({ runningMachine .encoding false with moves := [.host (.write 17 9)] } : State).st ≠ .idle ∧ 17 ≠ 0 ∧
      ({ runningMachine .encoding false with moves := [.host (.write 17 9)] } : State).moves = .host (.write 17 9) :: [] := by decide

theorem witness_TransmitWritesLoadTheConfigurationAndStart :
    ∃ s : State, s.st = .idle ∧ [(5 : Word), 6].length ≤ s.maxCodes ∧ [(5 : Word), 6].length < 2 ^ 32 ∧
      s.moves = (transmitWrites [5, 6] 1 17 190 4).map .host ++ [] :=
  ⟨{ idleMachine with moves := (transmitWrites [5, 6] 1 17 190 4).map .host }, by decide⟩

theorem witness_CommandWriteRunsTheDecodedOperation :
    ({ idleMachine with moves := [.host (.write 0 1)] } : State).moves = .host (.write 0 1) :: [] ∧
      decode (.cmd 1) = .ok .transmit := by decide

theorem witness_EngineStepRunsTheIssuedOperation :
    portOperation (runningMachine .releasing true) = some (.release 17) ∧ (runningMachine .releasing true).moves = [] ∧
      portOperation ({ runningMachine .releasing false with moves := [.engine] } : State) = some (.setLevel 17 .low) ∧
      portOperation { idleMachine with st := .acquiringPin } = some (.acquire 17) ∧
      portOperation (runningMachine .acquiringPin true) = some (.setLevel 17 .low) ∧
      portOperation (runningMachine .transmitting false) = some (.setLevel 17 .high) ∧
      portOperation { runningMachine .transmitting true with rem := 1 } = some (.sleep 17 1) ∧
      portOperation (runningMachine .encoding false) = none ∧ portOperation idleMachine = none := by decide

theorem witness_PlacedWordsAreWhatTheNextStepRuns :
    decoded (.port 0) = some (.setLevel 0 .low) ∧ decoded (.symbol 1 1) = some (.sym1 1) ∧
      decoded (.symbol 0 1) = some (.sym0 1) := by decide

theorem witness_EncodedOperationsDecodeToThemselves :
    Instr.wellFormed (.sleep 17 1) = true ∧ Instr.wellFormed (.encode 5 4) = true := by decide

theorem witness_PortRequestsHaveOneMeaning :
    decoded (.port 2) = some (.acquire 0) ∧ decoded (.port 1180591620717411303426) = some (.acquire 0) ∧
      decoded (.port 1) = some (.sleep 0 0) := by decide

theorem witness_ResetIsRefusedDuringARun :
    ({ idleMachine with moves := [.reset] } : State).moves = .reset :: [] ∧ idleMachine.st = .idle ∧
      ({ runningMachine .encoding false with moves := [.reset] } : State).moves = .reset :: [] ∧
      (runningMachine .encoding false).st ≠ .idle := by decide

theorem witness_EachStepIssuesAtMostOneTransaction :
    (after (step (runningMachine .releasing true)) State.trace).isSome := by decide

theorem witness_EngineNeverWritesTheConfiguration :
    (after (engineStep (runningMachine .releasing true)) State.trace).isSome := by decide

theorem witness_NoStepChangesTheCapacity :
    (after (step { idleMachine with moves := [.host (.write 3 3)] }) State.maxCodes).isSome := by decide

theorem witness_CountersAdvanceOnlyInWait :
    (after (engineStep (runningMachine .encoding false)) State.k).isSome ∧
      ¬ ((runningMachine .encoding false).st = .transmitting ∧ (runningMachine .encoding false).phase = true) ∧
      (after (engineStep { runningMachine .acquiringPin true with okAnswers := [true], k := 1 }) State.k) = some 0 := by decide

theorem witness_LevelDecidesNothing :
    (after (engineStep { runningMachine .transmitting false with okAnswers := [false] }) State.level).isSome := by decide

theorem witness_AbortRequestIsReadOnlyInEncoding :
    (runningMachine .releasing true).st ≠ .encoding ∧ (after (engineStep (runningMachine .releasing true)) State.abortp).isSome := by decide

/-- The running machine at ENCODING, DRIVE, WAIT and the cleanup meets the invariant. -/
theorem inv_encodingMachine : Inv (runningMachine .encoding false) :=
  ⟨by decide, by decide, by decide, by decide, by decide, by decide, by decide⟩

theorem inv_waitMachine : Inv { runningMachine .transmitting true with rem := 570, level := .high } :=
  ⟨by decide, by decide, by decide, by decide, by decide, fun _ => ⟨by decide, ⟨.high, 570⟩, by decide⟩, by decide⟩

theorem inv_idleMachine : Inv idleMachine :=
  ⟨by decide, by decide, by decide, by decide, by decide, by decide, by decide⟩

theorem witness_CodesAboveTheCountAreNeverRead :
    Inv (runningMachine .encoding false) ∧
      (∀ i < (runningMachine .encoding false).ncodes.toNat,
        memRead [(0, 1), (1, 9)] i = memRead (runningMachine .encoding false).codes i) ∧
      (after (engineStep (runningMachine .encoding false)) State.plan).isSome :=
  ⟨inv_encodingMachine, by decide, by decide⟩

theorem witness_RecordOutlivesTheRun :
    ({ idleMachine with moves := [.host (.write 0 2)] } : State).st = .idle ∧
      (after (step { idleMachine with moves := [.host (.write 0 2)] }) State.done).isSome ∧
      decode (.cmd 2) ≠ .ok .transmit ∧
      ∀ rest, ({ idleMachine with moves := [.host (.write 0 2)] } : State).moves ≠ .reset :: rest :=
  ⟨rfl, by decide, by decide, fun _ h => by cases h⟩

theorem witness_FirstErrorOfARunWins :
    ({ runningMachine .releasing false with result := .aborted, okAnswers := [false] } : State).st ≠ .idle ∧
      ({ runningMachine .releasing false with result := .aborted, okAnswers := [false] } : State).result ≠ .none ∧
      (after (step { runningMachine .releasing false with result := .aborted, okAnswers := [false] }) State.result).isSome := by decide

theorem witness_CleanupAlwaysEndsInIdle :
    (runningMachine .releasing false).moves = [] ∧ (runningMachine .releasing false).st = .releasing ∧
      (runningMachine .releasing false).phase = false := by decide

theorem witness_StepKeepsTheMachineInvariant :
    Inv { runningMachine .transmitting true with rem := 570, level := .high, sleepAnswers := [0] } ∧
      (after (step { runningMachine .transmitting true with rem := 570, level := .high, sleepAnswers := [0] })
        State.seg).isSome :=
  ⟨⟨inv_waitMachine.codes, inv_waitMachine.owned, inv_waitMachine.configured, inv_waitMachine.counters,
      inv_waitMachine.plan, inv_waitMachine.wait, inv_waitMachine.record⟩, by decide⟩

theorem witness_StepKeepsThePortProtocol :
    Inv (runningMachine .encoding false) ∧ PortProtocol (runningMachine .encoding false) ∧
      (after (step (runningMachine .encoding false)) State.trace).isSome :=
  ⟨inv_encodingMachine, by decide, by decide⟩

theorem witness_ConfiguredMachineNeverFaults :
    Inv { idleMachine with moves := [.host (.read 17)] } ∧ CodesWritten { idleMachine with moves := [.host (.read 17)] } ∧
      faultOf (step { idleMachine with moves := [.host (.read 17)] }) = some .codeUnwritten :=
  ⟨⟨inv_idleMachine.codes, inv_idleMachine.owned, inv_idleMachine.configured, inv_idleMachine.counters,
      inv_idleMachine.plan, inv_idleMachine.wait, inv_idleMachine.record⟩, by decide, by decide⟩

theorem witness_InterruptedWaitSleepsTheWholeDuration :
    ∃ s : State, s.moves = [] ∧ s.st = .transmitting ∧ s.phase = true ∧ s.rem ≠ 0 ∧
      (s.rem :: [3, 1]).IsChain (fun d a => a ≤ d) ∧ (∀ a ∈ [(3 : Dur), 1], a ≠ 0) ∧
      s.sleepAnswers = [3, 1] ++ 0 :: [] :=
  ⟨{ runningMachine .transmitting true with rem := 3, sleepAnswers := [3, 1, 0] },
    rfl, rfl, rfl, by decide, by decide, by simp, rfl⟩

theorem witness_OneRepeatSendsThePlanInOrder :
    ∃ s : State, s.moves = [] ∧ s.st = .transmitting ∧ s.phase = false ∧ s.seg = 0 ∧
      s.plan.length = 2 * s.bitlen.toNat + 2 ∧ (∀ g ∈ s.plan, g.duration ≠ 0) ∧
      s.okAnswers = List.replicate s.plan.length true ++ [] ∧ s.sleepAnswers = List.replicate s.plan.length 0 ++ [] :=
  ⟨{ runningMachine .transmitting false with okAnswers := List.replicate 4 true, sleepAnswers := List.replicate 4 0 }, by
    decide⟩

theorem witness_SuccessfulRunHasTheContractTrace :
    ∃ s : State, s.moves = [] ∧ s.st = .acquiringPin ∧ s.phase = false ∧ s.owned = false ∧ s.result = .none ∧
      s.abortp = false ∧ s.ncodes ≠ 0 ∧ s.iterations ≠ 0 ∧ s.bitlen ≠ 0 ∧ s.pulselen ≠ 0 ∧ CodeList s [1] ∧
      s.okAnswers = List.replicate (3 + [(1 : Word)].length * s.iterations.toNat * (2 * s.bitlen.toNat + 2)) true ++ [] ∧
      s.sleepAnswers = List.replicate ([(1 : Word)].length * s.iterations.toNat * (2 * s.bitlen.toNat + 2)) 0 ++ [] :=
  ⟨{ idleMachine with
    st := .acquiringPin, okAnswers := List.replicate 7 true, sleepAnswers := List.replicate 4 0 }, by decide⟩

theorem witness_StartBeginsANewObservation :
    afterFailedRun.st = .idle ∧ afterFailedRun.owned = false ∧ afterFailedRun.ncodes ≠ 0 ∧ afterFailedRun.iterations ≠ 0 ∧
      afterFailedRun.bitlen ≠ 0 ∧ afterFailedRun.pulselen ≠ 0 ∧ State.reset.st = .idle ∧ State.reset.owned = false ∧
      State.reset.ncodes = 0 := by decide

theorem witness_EarlierRunsAreNotObserved :
    afterFailedRun.runFrom ≤ afterFailedRun.trace.length ∧ (after (runFor 1 afterFailedRun) State.trace).isSome := by decide

theorem witness_CompleteRunIsObservedAsTheContract :
    ∃ s : State, s.moves = [.host (.write 0 1)] ∧ s.st = .idle ∧ s.owned = false ∧ s.ncodes ≠ 0 ∧ s.iterations ≠ 0 ∧
      s.bitlen ≠ 0 ∧ s.pulselen ≠ 0 ∧ CodeList s [1] ∧
      s.okAnswers = List.replicate (3 + [(1 : Word)].length * s.iterations.toNat * (2 * s.bitlen.toNat + 2)) true ++ [] ∧
      s.sleepAnswers = List.replicate ([(1 : Word)].length * s.iterations.toNat * (2 * s.bitlen.toNat + 2)) 0 ++ [] :=
  ⟨{ afterFailedRun with okAnswers := List.replicate 7 true, sleepAnswers := List.replicate 4 0 }, by decide⟩

end Sys2Proof.Tests
end

section
/-! SUPPORT. What a step can do to the port trace, the holding of the handle and the configuration, said once for the
four port operations, the engine, the host's accesses and the reset. -/

namespace Sys2Proof.Machine

/-! ## What a step can do -/

/-- The transaction that a port operation issues in a state, with the answer the environment has for it (R67, R130);
none for the other operations. -/
def State.transaction (s : State) : Instr → Option Transaction
  | .setLevel q lv => some (.setLevel q lv s.okAnswer)
  | .sleep q d => some (.sleep q d (s.sleepAnswer d))
  | .acquire q => some (.acquire q s.okAnswer)
  | .release q => some (.release q)
  | _ => none

/-- Whether the handle is held after a transaction, whether or not the protocol allows it there (R26). -/
def Transaction.ownedAfter (held : Bool) : Transaction → Bool
  | .acquire _ ok => ok || held
  | .release _ => false
  | .setLevel _ _ _ => held
  | .sleep _ _ _ => held

/-- What an operation leaves when it issues the transactions `xs`: the trace gains just these, the last run goes on, and
the configuration and the parameter stand. -/
structure Issues (s t : State) (xs : List Transaction) : Prop where
  trace : t.trace = s.trace ++ xs
  runFrom : t.runFrom = s.runFrom
  owned : t.owned = xs.foldl Transaction.ownedAfter s.owned
  configuration : t.configuration = s.configuration

theorem Issues.trans {s t u : State} {xs ys : List Transaction} (hst : Issues s t xs) (htu : Issues t u ys) :
    Issues s u (xs ++ ys) where
  trace := by rw [htu.trace, hst.trace, List.append_assoc]
  runFrom := htu.runFrom.trans hst.runFrom
  owned := by rw [htu.owned, hst.owned, List.foldl_append]
  configuration := htu.configuration.trans hst.configuration

theorem Issues.refl (s : State) : Issues s s [] := ⟨(List.append_nil _).symm, rfl, rfl, rfl⟩

theorem Issues.maxCodes {s t : State} {xs : List Transaction} (h : Issues s t xs) : t.maxCodes = s.maxCodes :=
  congrArg (fun c => c.2.2.2.2.2.2) h.configuration

theorem execSetLevel_issues {q : Word} {lv : Level} {s t : State} (h : execSetLevel q lv s = .next t) :
    Issues s t [.setLevel q lv s.okAnswer] := by
  simp only [execSetLevel] at h
  cases hp : s.position <;> cases hg : s.segment <;> simp only [hp, hg] at h <;> cases h
  all_goals constructor <;> split <;> simp [State.configuration, Transaction.ownedAfter]

/-- The end of a wait moves the counters and the position only. -/
theorem afterWait_issues_nothing (s : State) : Issues s (afterWait s) [] := by
  rcases afterWait_cases s with ⟨-, e⟩ | ⟨-, -, e⟩ | ⟨-, -, -, e⟩ | ⟨-, -, -, e⟩ <;> rw [e] <;>
    exact ⟨(List.append_nil _).symm, rfl, rfl, rfl⟩

/-- A SLEEP transaction, whatever remaining wait the WAIT step then notes. -/
theorem portSleep_issues (q : Word) (d rem : Dur) (s : State) :
    Issues s { s.portSleep q d with rem := rem } [.sleep q d (s.sleepAnswer d)] := by
  constructor <;> simp [State.configuration, Transaction.ownedAfter]

theorem execSleep_issues {q : Word} {d : Dur} {s t : State} (h : execSleep q d s = .next t) :
    Issues s t [.sleep q d (s.sleepAnswer d)] := by
  rcases (execSleep_cases h).2 with ⟨-, rfl⟩ | ⟨-, -, rfl⟩ | ⟨-, -, rfl⟩
  · exact portSleep_issues q d (s.portSleep q d).rem s
  · exact portSleep_issues q d _ s
  · exact (portSleep_issues q d 0 s).trans (afterWait_issues_nothing _)

theorem execAcquire_issues {q : Word} {s t : State} (h : execAcquire q s = .next t) :
    Issues s t [.acquire q s.okAnswer] := by
  simp only [execAcquire] at h
  split at h <;> cases h
  · constructor <;> split <;> simp [State.configuration, Transaction.ownedAfter]
  · constructor <;> simp [State.configuration, Transaction.ownedAfter]

theorem execRelease_issues {q : Word} {s t : State} (h : execRelease q s = .next t) :
    Issues s t [.release q] := by
  simp only [execRelease] at h
  cases h
  constructor <;> split <;> simp [State.configuration, Transaction.ownedAfter]

/-- A port operation issues its one transaction, at every position (R130). -/
theorem exec_issues {i : Instr} {x : Transaction} {s t : State} (hx : s.transaction i = some x)
    (h : exec i s = .next t) : Issues s t [x] := by
  cases i <;> simp only [State.transaction, Option.some.injEq, reduceCtorEq] at hx <;> subst hx
  case setLevel q lv => exact execSetLevel_issues h
  case sleep q d => exact execSleep_issues h
  case acquire q => exact execAcquire_issues h
  case release q => exact execRelease_issues h

/-- What the positions issue are port operations (R131). -/
theorem transaction_of_portOperation {s : State} {i : Instr} (h : portOperation s = some i) :
    ∃ x, s.transaction i = some x := by
  unfold portOperation at h
  cases hp : s.position <;> simp only [hp] at h
  case drive =>
    obtain ⟨g, -, rfl⟩ := Option.map_eq_some_iff.1 h
    exact ⟨_, rfl⟩
  all_goals cases h <;> exact ⟨_, rfl⟩

/-- The ENCODING step issues no transaction (R106). -/
theorem encodingStep_issues_nothing {s t : State} (h : encodingStep s = .next t) : Issues s t [] := by
  rcases encodingStep_cases h with ⟨-, rfl⟩ | ⟨-, -, rfl⟩ | ⟨_, -, -, -, -, rfl⟩ | ⟨_, -, -, -, -, rfl⟩ <;>
    constructor <;> simp [State.configuration]

/-- A step of the engine issues the transaction of the operation at its position, or none (R119, R131). -/
theorem engineStep_cases {s t : State} (h : engineStep s = .next t) :
    (s.position = .idle ∧ t = s) ∨ (s.position = .encoding ∧ encodingStep s = .next t) ∨
    ∃ i x, portOperation s = some i ∧ s.transaction i = some x ∧ exec i s = .next t := by
  unfold engineStep at h
  split at h
  · rename_i i hi
    obtain ⟨x, hx⟩ := transaction_of_portOperation hi
    exact .inr (.inr ⟨i, x, hi, hx, h⟩)
  · rename_i hn
    cases hp : s.position <;> simp only [portOperation, hp, reduceCtorEq] at h hn
    case idle => exact .inl ⟨rfl, by cases h; rfl⟩
    case encoding => exact .inr (.inl ⟨rfl, h⟩)

theorem engineStep_issues {s t : State} (h : engineStep s = .next t) :
    ∃ xs, Issues s t xs := by
  rcases engineStep_cases h with ⟨-, rfl⟩ | ⟨-, he⟩ | ⟨i, x, -, hx, he⟩
  · exact ⟨[], .refl _⟩
  · exact ⟨[], encodingStep_issues_nothing he⟩
  · exact ⟨[x], exec_issues hx he⟩

/-- A command word selects one of the host's four operations (R31). -/
theorem decodeCmd_cases (w : Word) :
    decodeCmd w = .nop ∨ decodeCmd w = .transmit ∨ decodeCmd w = .abort ∨ decodeCmd w = .cmdReserved := by
  unfold decodeCmd
  split <;> simp

/-- What one access of the host does: a read, a register write, nothing, an ABORT or a START (R13, R31, R46). -/
theorem hostStep_cases {a : HostAccess} {s t : State} (h : hostStep a s = .next t) :
    (∃ v, t = { s with rdata := v }) ∨ (∃ i v, t = regWrite s i v) ∨ t = s ∨ t = { s with abortp := true } ∨
    (s.st = .idle ∧ t = startStep s) := by
  cases a with
  | read i =>
    simp only [hostStep] at h
    split at h <;> cases h
    exact .inl ⟨_, rfl⟩
  | write i v =>
    simp only [hostStep] at h
    split at h
    · refine .inr (.inr ?_)
      rcases decodeCmd_cases v with hd | hd | hd | hd <;>
        simp only [hd, exec, execNop, execTransmit, execAbort, execCmdReserved] at h <;> cases h
      · exact .inl rfl
      · split
        · exact .inr (.inr ⟨‹_›, rfl⟩)
        · exact .inl rfl
      · split
        · exact .inl rfl
        · exact .inr (.inl rfl)
      · exact .inl rfl
    · cases h
      exact .inr (.inl ⟨i, v, rfl⟩)

/-- A register write leaves everything but the configuration, and the parameter (R13, R30). -/
theorem regWrite_frame (s : State) (i : Nat) (v : Word) :
    (regWrite s i v).trace = s.trace ∧ (regWrite s i v).runFrom = s.runFrom ∧ (regWrite s i v).owned = s.owned ∧
      (regWrite s i v).maxCodes = s.maxCodes := by
  unfold regWrite
  split_ifs <;> exact ⟨rfl, rfl, rfl, rfl⟩

/-- The START step issues no transaction and begins a new run (R103). -/
theorem startStep_frame (s : State) :
    (startStep s).trace = s.trace ∧ (startStep s).runFrom = s.trace.length ∧ (startStep s).owned = s.owned ∧
      (startStep s).maxCodes = s.maxCodes := by
  unfold startStep
  split <;> simp

/-- Every step is an engine step, a host access or a reset in IDLE, of the state without that move (R119, R181). -/
theorem step_cases {s t : State} (h : step s = .next t) :
    ∃ ms, engineStep { s with moves := ms } = .next t ∨ (∃ a, hostStep a { s with moves := ms } = .next t) ∨
      (s.st = .idle ∧ t = { s with moves := ms }.toReset) := by
  obtain ⟨m, ms, hm⟩ := step_is_move s
  rw [hm] at h
  refine ⟨ms, ?_⟩
  cases m with
  | engine => exact .inl h
  | host a => exact .inr (.inl ⟨a, h⟩)
  | reset =>
    simp only [moveStep, resetStep] at h
    split at h
    · cases h
    · rename_i hb
      exact .inr (.inr ⟨by simpa [State.busy] using hb, by cases h; rfl⟩)

/-- Settles O41: the engine leaves the configuration, a register write and START leave the parameter, and a reset keeps
it. -/
theorem noStepChangesTheCapacity : Obligations.NoStepChangesTheCapacity := by
  intro s t h
  obtain ⟨ms, he | ⟨a, ha⟩ | ⟨-, rfl⟩⟩ := step_cases h
  · obtain ⟨xs, hx⟩ := engineStep_issues he
    exact hx.maxCodes
  · rcases hostStep_cases ha with ⟨_, rfl⟩ | ⟨i, v, rfl⟩ | rfl | rfl | ⟨-, rfl⟩
    · rfl
    · exact (regWrite_frame _ i v).2.2.2
    · rfl
    · rfl
    · exact (startStep_frame _).2.2.2
  · rfl

end Sys2Proof.Machine
end

section
/-! SUPPORT. The port protocol is kept by every step; the environment's answers; what START begins. -/

namespace Sys2Proof.Machine

/-! ## The port protocol (O50) -/

/-- One more transaction is judged by the holding before it. -/
theorem heldAfterTrace_concat (ts : List Transaction) (x : Transaction) :
    heldAfterTrace (ts ++ [x]) = (heldAfterTrace ts).bind (heldAfter · x) := by
  rw [heldAfterTrace, heldAfterTrace, List.foldl_append, List.foldl_cons, List.foldl_nil]

/-- The protocol is a matter of the trace, of where the last run begins in it and of the holding. -/
theorem portProtocol_congr {s t : State} (hp : PortProtocol s) (trace : t.trace = s.trace)
    (runFrom : t.runFrom = s.runFrom) (owned : t.owned = s.owned) : PortProtocol t := by
  rw [PortProtocol, runTrace_congr trace runFrom, trace, runFrom, owned]
  exact hp

/-- A transaction that the protocol allows after the trace is allowed after the last run's trace too, since both leave
the handle held alike. -/
theorem portProtocol_of_issued {s t : State} {x : Transaction} (hp : PortProtocol s) (h : Issues s t [x])
    (allowed : heldAfter s.owned x = some t.owned) : PortProtocol t := by
  obtain ⟨inRange, whole, last⟩ := hp
  rw [PortProtocol, runTrace_append inRange h.trace h.runFrom, h.trace, h.runFrom]
  refine ⟨?_, ?_, ?_⟩
  · rw [List.length_append]; omega
  · rw [heldAfterTrace_concat, whole]; exact allowed
  · rw [heldAfterTrace_concat, last]; exact allowed

/-- A run that begins while the handle is not held begins with a trace of its own that keeps the protocol. -/
theorem portProtocol_of_new_run {s t : State} (hp : PortProtocol s) (trace : t.trace = s.trace)
    (runFrom : t.runFrom = s.trace.length) (owned : t.owned = s.owned) (free : s.owned = false) : PortProtocol t := by
  have none_yet : t.runTrace = [] := by rw [State.runTrace, trace, runFrom, List.drop_length]
  obtain ⟨-, whole, -⟩ := hp
  rw [PortProtocol, none_yet, trace, runFrom, owned]
  exact ⟨le_rfl, whole, by rw [free]; rfl⟩

/-- What a transaction that the protocol allows leaves held. -/
theorem heldAfter_eq_some_ownedAfter {held : Bool} {x : Transaction} (h : (heldAfter held x).isSome) :
    heldAfter held x = some (x.ownedAfter held) := by
  cases x <;> cases held <;> simp_all [heldAfter, Transaction.ownedAfter]

/-- In the positions of a run the engine issues only what the protocol allows there (R26, R131, R134, R135). -/
theorem engine_transaction_allowed {s t : State} {i : Instr} {x : Transaction} (ho : OwnedWhereHeld s)
    (hw : WaitInRange s) (hi : portOperation s = some i) (hx : s.transaction i = some x) (h : exec i s = .next t) :
    (heldAfter s.owned x).isSome := by
  obtain ⟨held, -⟩ := ho
  unfold portOperation at hi
  cases hp : s.position <;> simp only [hp, reduceCtorEq, Option.some.injEq] at hi
  case acq =>
    have : s.owned = false := by simpa [hp] using held
    subst hi; cases hx
    simp [heldAfter, this]
  case drive =>
    have : s.owned = true := held.2 (by simp [hp])
    obtain ⟨g, -, rfl⟩ := Option.map_eq_some_iff.1 hi
    cases hx
    simp [heldAfter, this]
  case wait =>
    have : s.owned = true := held.2 (by simp [hp])
    subst hi; cases hx
    simp [heldAfter, this, (hw hp).1, (execSleep_cases h).1]
  all_goals
    have : s.owned = true := held.2 (by simp [hp])
    subst hi; cases hx
    simp [heldAfter, this]

theorem engineStep_keeps_portProtocol {s t : State} (inv : Inv s) (hp : PortProtocol s) (h : engineStep s = .next t) :
    PortProtocol t := by
  rcases engineStep_cases h with ⟨-, rfl⟩ | ⟨-, he⟩ | ⟨i, x, hi, hx, he⟩
  · exact hp
  · have silent := encodingStep_issues_nothing he
    exact portProtocol_congr hp (silent.trace.trans (List.append_nil _)) silent.runFrom silent.owned
  · have issues := exec_issues hx he
    have allowed := engine_transaction_allowed inv.owned inv.wait hi hx he
    refine portProtocol_of_issued hp issues ?_
    rw [heldAfter_eq_some_ownedAfter allowed, issues.owned]
    rfl

/-- In IDLE the handle is not held (R26). -/
theorem Inv.not_owned_of_idle {s : State} (inv : Inv s) (h : s.st = .idle) : s.owned = false := by
  have := inv.owned.1
  simpa [(position_idle_iff s).2 h] using this

theorem hostStep_keeps_portProtocol {a : HostAccess} {s t : State} (inv : Inv s) (hp : PortProtocol s)
    (h : hostStep a s = .next t) : PortProtocol t := by
  rcases hostStep_cases h with ⟨v, rfl⟩ | ⟨i, v, rfl⟩ | rfl | rfl | ⟨hi, rfl⟩
  · exact hp
  · obtain ⟨trace, runFrom, owned, -⟩ := regWrite_frame s i v
    exact portProtocol_congr hp trace runFrom owned
  · exact hp
  · exact hp
  · obtain ⟨trace, runFrom, owned, -⟩ := startStep_frame s
    exact portProtocol_of_new_run hp trace runFrom owned (inv.not_owned_of_idle hi)

/-- Whose move is next is no part of the invariant. -/
theorem Inv.with_moves {s : State} (inv : Inv s) (ms : List Slot) : Inv { s with moves := ms } :=
  ⟨inv.codes, inv.owned, inv.configured, inv.counters, inv.plan, inv.wait, inv.record⟩

/-- Settles O50: the engine issues at each position only what the protocol allows there, the host's accesses issue
nothing, and a run or a reset begins with the handle not held. -/
theorem stepKeepsThePortProtocol : Obligations.StepKeepsThePortProtocol := by
  intro s t inv hp h
  obtain ⟨ms, he | ⟨a, ha⟩ | ⟨hi, rfl⟩⟩ := step_cases h
  · exact engineStep_keeps_portProtocol (inv.with_moves ms) hp he
  · exact hostStep_keeps_portProtocol (inv.with_moves ms) hp ha
  · have free := inv.not_owned_of_idle hi
    exact portProtocol_of_new_run hp rfl rfl free.symm free

/-! ## The environment's answers (O14) -/

theorem okAnswer_of_written {s : State} {a : Bool} {rest : List Bool} (h : s.okAnswers = a :: rest) :
    s.okAnswer = a ∧ s.okAnswerTaken = { s with okAnswers := rest } := by
  simp [State.okAnswer, State.okAnswerTaken, h]

theorem sleepAnswer_of_written {s : State} {a : Dur} {rest : List Dur} (h : s.sleepAnswers = a :: rest) (d : Dur) :
    s.sleepAnswer d = a ∧ s.sleepAnswerTaken = { s with sleepAnswers := rest } := by
  simp [State.sleepAnswer, State.sleepAnswerTaken, h]

theorem okAnswer_of_unwritten {s : State} (h : s.okAnswers = []) :
    s.okAnswer = Config.portAnswer s.draws ∧ s.okAnswerTaken = { s with draws := s.draws + 1 } := by
  simp [State.okAnswer, State.okAnswerTaken, h]

theorem sleepAnswer_of_unwritten {s : State} (h : s.sleepAnswers = []) (d : Dur) :
    s.sleepAnswer d = freeRemaining s.draws d ∧ s.sleepAnswerTaken = { s with draws := s.draws + 1 } := by
  simp [State.sleepAnswer, State.sleepAnswerTaken, h]

/-- Settles O14, from what a written and an unwritten answer are and the bound of a free SLEEP answer. -/
theorem answersAreWrittenOrFree : Obligations.AnswersAreWrittenOrFree := by
  intro s d
  refine ⟨fun a rest h => okAnswer_of_written h, okAnswer_of_unwritten, fun a rest h => sleepAnswer_of_written h d,
    fun h => ?_⟩
  obtain ⟨answer, taken⟩ := sleepAnswer_of_unwritten h d
  rw [answer]
  exact ⟨freeRemaining_le _ _, fun hle => if_pos hle, taken⟩

/-! ## What START begins (O58) -/

/-- Settles O58: START clears the last run and begins a trace of its own, and with an invalid configuration raises on the
cleared record. -/
theorem startBeginsANewObservation : Obligations.StartBeginsANewObservation := by
  refine fun s idle => ⟨fun hn hi hb hp => ?valid, fun free bad => ?invalid⟩
  case valid =>
    have mask := (paramMask_eq_zero_iff s).2 ⟨hn, hi, hb, hp⟩
    exact ⟨_, execTransmit_of_valid idle mask, rfl, congrArg (·, RunResult.inProgress) (runTrace_clearRun s)⟩
  case invalid =>
    have mask : paramMask s ≠ 0 := fun h => by
      obtain ⟨hn, hi, hb, hp⟩ := (paramMask_eq_zero_iff s).1 h
      rcases bad with h | h | h | h <;> contradiction
    refine ⟨_, stageOfMask (paramMask s), paramMask s, execTransmit_of_invalid idle mask, by simp, mask, ?_⟩
    have noTrace : ∀ e, (s.clearRun.raise e).runTrace = [] := fun e =>
      (runTrace_congr (raise_trace _ e) (raise_runFrom _ e)).trans (runTrace_clearRun s)
    rw [State.observe, noTrace, raise_of_not_owned (by simpa using free)]
    simp [State.runResult, State.writeRecord]
end Sys2Proof.Machine
end

section
/-! SUPPORT. Every operation goes on alike whatever the runs before the last one did. -/

namespace Sys2Proof.Machine

/-! ## Earlier runs are not observed (O59) -/

/-- The state with other transactions in place of those older than its last run. -/
def State.withHistory (s : State) (older : List Transaction) : State :=
  { s with trace := older ++ s.runTrace, runFrom := older.length }

/-- The answer with other transactions in place of those older than the last run. -/
def answerWithHistory (older : List Transaction) (o : Answer) : Answer := andThen o fun s => .next (s.withHistory older)

@[simp] theorem answerWithHistory_next (older : List Transaction) (s : State) :
    answerWithHistory older (.next s) = .next (s.withHistory older) := rfl

@[simp] theorem runTrace_withHistory (s : State) (older : List Transaction) :
    (s.withHistory older).runTrace = s.runTrace := List.drop_left

theorem observe_withHistory (s : State) (older : List Transaction) : (s.withHistory older).observe = s.observe :=
  congrArg (·, s.runResult) (runTrace_withHistory s older)

theorem ite_withHistory (c : Prop) [Decidable c] (s t : State) (older : List Transaction) :
    (if c then s else t).withHistory older = if c then s.withHistory older else t.withHistory older :=
  apply_ite (State.withHistory · older) c s t

@[simp] theorem goTo_withHistory (s : State) (older : List Transaction) (q : SeqState) (b : Bool) :
    (s.withHistory older).goTo q b = (s.goTo q b).withHistory older := rfl

theorem okAnswerTaken_withHistory (s : State) (older : List Transaction) :
    (s.withHistory older).okAnswerTaken = s.okAnswerTaken.withHistory older := by
  cases h : s.okAnswers <;> simp [State.okAnswerTaken, State.withHistory, State.runTrace, h]

theorem sleepAnswerTaken_withHistory (s : State) (older : List Transaction) :
    (s.withHistory older).sleepAnswerTaken = s.sleepAnswerTaken.withHistory older := by
  cases h : s.sleepAnswers <;> simp [State.sleepAnswerTaken, State.withHistory, State.runTrace, h]

theorem log_withHistory {s : State} (hs : s.runFrom ≤ s.trace.length) (older : List Transaction) (x : Transaction) :
    (s.withHistory older).log x = (s.log x).withHistory older := by
  simp [State.log, State.withHistory, State.runTrace, List.drop_append_of_le_length hs]

theorem writeRecord_withHistory (s : State) (older : List Transaction) (e : ErrorInfo) :
    (s.withHistory older).writeRecord e = (s.writeRecord e).withHistory older := by
  simp only [State.writeRecord, ite_withHistory]
  rfl

theorem endRun_withHistory (s : State) (older : List Transaction) :
    (s.withHistory older).endRun = s.endRun.withHistory older := by
  simp only [State.endRun, ite_withHistory]
  rfl

theorem raise_withHistory (s : State) (older : List Transaction) (e : ErrorInfo) :
    (s.withHistory older).raise e = (s.raise e).withHistory older := by
  rw [State.raise, writeRecord_withHistory, endRun_withHistory, State.raise]

theorem afterWait_withHistory (s : State) (older : List Transaction) :
    afterWait (s.withHistory older) = (afterWait s).withHistory older := by
  simp only [afterWait, ite_withHistory]
  rfl

theorem portSetLevel_withHistory {s : State} (hs : s.runFrom ≤ s.trace.length) (older : List Transaction) (q : Word)
    (lv : Level) : (s.withHistory older).portSetLevel q lv = (s.portSetLevel q lv).withHistory older := by
  rw [State.portSetLevel, okAnswerTaken_withHistory, log_withHistory (by simpa using hs)]
  rfl

theorem portAcquire_withHistory {s : State} (hs : s.runFrom ≤ s.trace.length) (older : List Transaction) (q : Word) :
    (s.withHistory older).portAcquire q = (s.portAcquire q).withHistory older := by
  rw [State.portAcquire, okAnswerTaken_withHistory, log_withHistory (by simpa using hs)]
  rfl

theorem portSleep_withHistory {s : State} (hs : s.runFrom ≤ s.trace.length) (older : List Transaction) (q : Word)
    (d : Dur) : (s.withHistory older).portSleep q d = (s.portSleep q d).withHistory older := by
  rw [State.portSleep, sleepAnswerTaken_withHistory, log_withHistory (by simpa using hs)]
  rfl

theorem portRelease_withHistory {s : State} (hs : s.runFrom ≤ s.trace.length) (older : List Transaction) (q : Word) :
    (s.withHistory older).portRelease q = (s.portRelease q).withHistory older := by
  rw [State.portRelease, log_withHistory hs]
  rfl

/-! The engine's steps go on alike whatever the earlier runs did. -/

theorem execSetLevel_withHistory {s : State} (hs : s.runFrom ≤ s.trace.length) (older : List Transaction) (q : Word)
    (lv : Level) : execSetLevel q lv (s.withHistory older) = answerWithHistory older (execSetLevel q lv s) := by
  have position : (s.withHistory older).position = s.position := rfl
  have segment : (s.withHistory older).segment = s.segment := rfl
  have answer : (s.withHistory older).okAnswer = s.okAnswer := rfl
  have k : (s.withHistory older).k = s.k := rfl
  simp only [execSetLevel, portSetLevel_withHistory hs, position, segment, answer, k, raise_withHistory,
    writeRecord_withHistory]
  cases s.position <;> cases s.segment <;> cases s.okAnswer <;> rfl

theorem execSleep_withHistory {s : State} (hs : s.runFrom ≤ s.trace.length) (older : List Transaction) (q : Word)
    (d : Dur) : execSleep q d (s.withHistory older) = answerWithHistory older (execSleep q d s) := by
  have position : (s.withHistory older).position = s.position := rfl
  have answer : (s.withHistory older).sleepAnswer d = s.sleepAnswer d := rfl
  simp only [execSleep, portSleep_withHistory hs, position, answer]
  by_cases hle : s.sleepAnswer d ≤ d
  · rw [if_pos hle, if_pos hle]
    by_cases h0 : s.sleepAnswer d = 0
    · simp only [if_pos h0]
      have e := afterWait_withHistory { s.portSleep q d with rem := 0 } older
      cases s.position
      case wait => exact congrArg _ e
      all_goals rfl
    · simp only [if_neg h0]
      cases s.position <;> rfl
  · rw [if_neg hle, if_neg hle]
    rfl

theorem execAcquire_withHistory {s : State} (hs : s.runFrom ≤ s.trace.length) (older : List Transaction) (q : Word) :
    execAcquire q (s.withHistory older) = answerWithHistory older (execAcquire q s) := by
  have position : (s.withHistory older).position = s.position := rfl
  have answer : (s.withHistory older).okAnswer = s.okAnswer := rfl
  simp only [execAcquire, portAcquire_withHistory hs, position, answer, raise_withHistory]
  by_cases hp : s.position = .acq <;> cases s.okAnswer <;> simp only [hp, if_true, if_false] <;> rfl

theorem execRelease_withHistory {s : State} (hs : s.runFrom ≤ s.trace.length) (older : List Transaction) (q : Word) :
    execRelease q (s.withHistory older) = answerWithHistory older (execRelease q s) := by
  have position : (s.withHistory older).position = s.position := rfl
  simp only [execRelease, portRelease_withHistory hs, position]
  by_cases hp : s.position = .rel <;> simp only [hp, if_true, if_false] <;> rfl

theorem encodingStep_withHistory (s : State) (older : List Transaction) :
    encodingStep (s.withHistory older) = answerWithHistory older (encodingStep s) := by
  have abortp : (s.withHistory older).abortp = s.abortp := rfl
  have code : memRead (s.withHistory older).codes (s.withHistory older).k.toNat = memRead s.codes s.k.toNat := rfl
  have bitlen : (s.withHistory older).bitlen = s.bitlen := rfl
  have pulselen : (s.withHistory older).pulselen = s.pulselen := rfl
  unfold encodingStep
  rw [abortp, code, bitlen, pulselen]
  split
  · exact congrArg _ (raise_withHistory ..)
  · cases memRead s.codes s.k.toNat with
    | none => rfl
    | some c =>
      simp only [exec, execEncode, execSchedule]
      by_cases hb : s.bitlen = 0
      · simp only [if_pos hb, andThen_next]
        exact congrArg _ (raise_withHistory ..)
      · by_cases hp : s.pulselen = 0
        · simp only [if_neg hb, if_pos hp, andThen_next]
          exact congrArg _ (raise_withHistory { s with symOut := encodeCode c.toNat s.bitlen.toNat } ..)
        · simp only [if_neg hb, if_neg hp, andThen_next]
          rfl

theorem engineStep_withHistory {s : State} (hs : s.runFrom ≤ s.trace.length) (older : List Transaction) :
    engineStep (s.withHistory older) = answerWithHistory older (engineStep s) := by
  have position : (s.withHistory older).position = s.position := rfl
  cases hp : s.position <;> rw [hp] at position
  case idle => rw [engineStep_idle position, engineStep_idle hp]; rfl
  case acq => rw [engineStep_acq position, engineStep_acq hp]; exact execAcquire_withHistory hs older s.pin
  case initLow =>
    rw [engineStep_initLow position, engineStep_initLow hp]; exact execSetLevel_withHistory hs older s.pin .low
  case encoding => rw [engineStep_encoding position, engineStep_encoding hp]; exact encodingStep_withHistory s older
  case drive =>
    cases hg : s.segment with
    | none => rw [engineStep_drive_none position hg, engineStep_drive_none hp hg]; rfl
    | some g =>
      rw [engineStep_drive position hg, engineStep_drive hp hg]; exact execSetLevel_withHistory hs older s.pin g.level
  case wait => rw [engineStep_wait position, engineStep_wait hp]; exact execSleep_withHistory hs older s.pin s.rem
  case finalLow =>
    rw [engineStep_finalLow position, engineStep_finalLow hp]; exact execSetLevel_withHistory hs older s.pin .low
  case rel => rw [engineStep_rel position, engineStep_rel hp]; exact execRelease_withHistory hs older s.pin

/-- At an accepted START the transactions of the run before become earlier ones. -/
theorem startStep_withHistory (s : State) (older : List Transaction) :
    startStep (s.withHistory older) = (startStep s).withHistory (older ++ s.runTrace) := by
  have mask : paramMask (s.withHistory older) = paramMask s := rfl
  have cleared : (s.withHistory older).clearRun = s.clearRun.withHistory (older ++ s.runTrace) := by
    simp [State.clearRun, State.withHistory, State.runTrace]
  rw [startStep, startStep, mask, cleared, goTo_withHistory, raise_withHistory]
  split <;> rfl

theorem toReset_withHistory (s : State) (older : List Transaction) :
    (s.withHistory older).toReset = s.toReset.withHistory (older ++ s.runTrace) := by
  simp [State.toReset, State.withHistory, State.runTrace]

theorem regWrite_withHistory (s : State) (older : List Transaction) (i : Nat) (v : Word) :
    regWrite (s.withHistory older) i v = (regWrite s i v).withHistory older := by
  simp only [regWrite, ite_withHistory]
  rfl

theorem hostStep_withHistory {a : HostAccess} {s t : State} (h : hostStep a s = .next t) (older : List Transaction) :
    ∃ earlier, hostStep a (s.withHistory older) = .next (t.withHistory earlier) := by
  cases a with
  | read i =>
    have read : regRead (s.withHistory older) i = regRead s i := rfl
    simp only [hostStep] at h ⊢
    rw [read]
    split at h <;> cases h
    exact ⟨older, rfl⟩
  | write i v =>
    simp only [hostStep] at h ⊢
    split at h
    · rename_i hi
      rw [if_pos hi]
      have idle : (s.withHistory older).st = s.st := rfl
      rcases decodeCmd_cases v with hd | hd | hd | hd <;>
        simp only [hd, exec, execNop, execTransmit, execAbort, execCmdReserved, idle] at h ⊢ <;> cases h
      · exact ⟨older, rfl⟩
      · split
        · exact ⟨_, congrArg _ (startStep_withHistory s older)⟩
        · exact ⟨older, rfl⟩
      · refine ⟨older, ?_⟩
        split <;> rfl
      · exact ⟨older, rfl⟩
    · rename_i hi
      cases h
      rw [if_neg hi]
      exact ⟨older, congrArg _ (regWrite_withHistory s older i v)⟩

theorem moveStep_withHistory {m : Slot} {s t : State} (hs : s.runFrom ≤ s.trace.length) (h : moveStep m s = .next t)
    (older : List Transaction) : ∃ earlier, moveStep m (s.withHistory older) = .next (t.withHistory earlier) := by
  cases m with
  | engine =>
    have h : engineStep s = .next t := h
    exact ⟨older, (engineStep_withHistory hs older).trans (by rw [h, answerWithHistory_next])⟩
  | host a => exact hostStep_withHistory h older
  | reset =>
    simp only [moveStep, resetStep] at h
    split at h
    · cases h
    · rename_i hb
      cases h
      exact ⟨_, (if_neg hb).trans (congrArg _ (toReset_withHistory s older))⟩

/-- One step of a state and of the same state after other runs lead to states that differ in the earlier transactions at
most. -/
theorem step_withHistory {s t : State} (hs : s.runFrom ≤ s.trace.length) (h : step s = .next t)
    (older : List Transaction) : ∃ earlier, step (s.withHistory older) = .next (t.withHistory earlier) := by
  cases hm : s.moves with
  | nil =>
    rw [step_of_no_move hm] at h
    rw [step_of_no_move (s := s.withHistory older) hm]
    exact moveStep_withHistory (m := .engine) hs h older
  | cons m rest =>
    rw [step_of_move hm] at h
    rw [step_of_move (s := s.withHistory older) hm]
    exact moveStep_withHistory (s := { s with moves := rest }) hs h older

/-- The last run begins within the trace, and every step keeps it so (R9). -/
theorem step_keeps_run_within_trace {s t : State} (hs : s.runFrom ≤ s.trace.length) (h : step s = .next t) :
    t.runFrom ≤ t.trace.length := by
  obtain ⟨ms, he | ⟨a, ha⟩ | ⟨-, rfl⟩⟩ := step_cases h
  · obtain ⟨xs, issues⟩ := engineStep_issues he
    rw [issues.runFrom, issues.trace, List.length_append]
    exact Nat.le_add_right_of_le hs
  · rcases hostStep_cases ha with ⟨v, rfl⟩ | ⟨i, v, rfl⟩ | rfl | rfl | ⟨-, rfl⟩
    · exact hs
    · obtain ⟨trace, runFrom, -⟩ := regWrite_frame { s with moves := ms } i v
      rw [trace, runFrom]
      exact hs
    · exact hs
    · exact hs
    · obtain ⟨trace, runFrom, -⟩ := startStep_frame { s with moves := ms }
      exact (runFrom.trans (congrArg _ trace.symm)).le
  · exact le_rfl

theorem run_withHistory {n : Nat} {s t : State} (hs : s.runFrom ≤ s.trace.length) (h : runFor n s = .next t)
    (older : List Transaction) : ∃ earlier, runFor n (s.withHistory older) = .next (t.withHistory earlier) := by
  induction n generalizing s older with
  | zero => cases h; exact ⟨older, rfl⟩
  | succ n ih =>
    obtain ⟨u, hu, ht⟩ := run_succ_eq_next h
    obtain ⟨earlier, he⟩ := step_withHistory hs hu older
    rw [run_succ_of_next he]
    exact ih (step_keeps_run_within_trace hs hu) ht earlier

/-- Settles O59: the run commutes with replacing the earlier transactions, which the observation leaves out. -/
theorem earlierRunsAreNotObserved : Obligations.EarlierRunsAreNotObserved := by
  intro n s t older hs h
  obtain ⟨earlier, he⟩ := run_withHistory hs h older
  exact ⟨_, he, observe_withHistory t earlier, rfl⟩

end Sys2Proof.Machine
end

section
/-! SUPPORT. Favourable runs: the single steps, the loops over segments, repeats and codes, and the whole run. -/

namespace Sys2Proof.Machine

/-! ## A favourable run, step by step (O60)

Each lemma says which state a stretch of the engine's run leads to when every ACQUIRE and SETLEVEL is answered `ok` and
every SLEEP is slept to its end. -/

theorem step_acq_ok {s : State} {oks : List Bool} (hm : s.moves = []) (hst : s.st = .acquiringPin)
    (hph : s.phase = false) (ho : s.okAnswers = true :: oks) :
    step s = .next { s with
      okAnswers := oks, owned := true, phase := true, trace := s.trace ++ [.acquire s.pin true] } := by
  have hp := (position_acq_iff s).2 ⟨hst, hph⟩
  obtain ⟨answer, taken⟩ := okAnswer_of_written ho
  rw [step_of_no_move hm, engineStep_acq hp]
  simp [exec, execAcquire, State.portAcquire, hp, answer, taken, State.log]

theorem step_initLow_ok {s : State} {oks : List Bool} (hm : s.moves = []) (hst : s.st = .acquiringPin)
    (hph : s.phase = true) (ho : s.okAnswers = true :: oks) :
    step s = .next { s with
      okAnswers := oks, level := .low, k := 0, st := .encoding, phase := false
      trace := s.trace ++ [.setLevel s.pin .low true] } := by
  have hp := (position_initLow_iff s).2 ⟨hst, hph⟩
  obtain ⟨answer, taken⟩ := okAnswer_of_written ho
  rw [step_of_no_move hm, engineStep_initLow hp]
  simp [exec, execSetLevel, State.portSetLevel, hp, answer, taken, State.log, State.goTo]

/-- The ENCODING step with no abort pending takes the plan of its code. -/
theorem step_encoding_takes_plan {s : State} {c : Word} (hm : s.moves = []) (hst : s.st = .encoding)
    (ha : s.abortp = false) (hc : memRead s.codes s.k.toNat = some c) (hb : s.bitlen ≠ 0) (hp : s.pulselen ≠ 0) :
    step s = .next { s with
      plan := planOf c s.bitlen s.pulselen, symOut := [], segOut := [], r := 0, seg := 0
      st := .transmitting, phase := false } := by
  rw [step_of_no_move hm, engineStep_encoding ((position_encoding_iff s).2 hst)]
  simp only [encodingStep, ha, Bool.and_false, hc, exec, execEncode, execSchedule, if_neg hb, if_neg hp, andThen_next]
  rfl

theorem step_drive_ok {s : State} {g : Segment} {oks : List Bool} (hm : s.moves = []) (hst : s.st = .transmitting)
    (hph : s.phase = false) (hg : s.segment = some g) (ho : s.okAnswers = true :: oks) :
    step s = .next { s with
      okAnswers := oks, level := g.level, rem := g.duration, phase := true
      trace := s.trace ++ [.setLevel s.pin g.level true] } := by
  have hp := (position_drive_iff s).2 ⟨hst, hph⟩
  obtain ⟨answer, taken⟩ := okAnswer_of_written ho
  rw [step_of_no_move hm, engineStep_drive hp hg]
  simp [exec, execSetLevel, State.portSetLevel, hp, hg, answer, taken, State.log]

/-- A SLEEP that is slept to its end ends the wait. -/
theorem step_wait_zero {s : State} {sleeps : List Dur} (hm : s.moves = []) (hst : s.st = .transmitting)
    (hph : s.phase = true) (hz : s.sleepAnswers = 0 :: sleeps) :
    step s = .next (afterWait { s with
      sleepAnswers := sleeps, rem := 0, trace := s.trace ++ [.sleep s.pin s.rem 0] }) := by
  have hp := (position_wait_iff s).2 ⟨hst, hph⟩
  obtain ⟨answer, taken⟩ := sleepAnswer_of_written hz s.rem
  rw [step_of_no_move hm, engineStep_wait hp]
  simp [exec, execSleep, State.portSleep, hp, answer, taken, State.log]

theorem step_finalLow_ok {s : State} {oks : List Bool} (hm : s.moves = []) (hst : s.st = .releasing)
    (hph : s.phase = false) (ho : s.okAnswers = true :: oks) :
    step s = .next { s with
      okAnswers := oks, level := .low, phase := true, trace := s.trace ++ [.setLevel s.pin .low true] } := by
  have hp := (position_finalLow_iff s).2 ⟨hst, hph⟩
  obtain ⟨answer, taken⟩ := okAnswer_of_written ho
  rw [step_of_no_move hm, engineStep_finalLow hp]
  simp [exec, execSetLevel, State.portSetLevel, hp, answer, taken, State.log]

theorem step_rel {s : State} (hm : s.moves = []) (hst : s.st = .releasing) (hph : s.phase = true) :
    step s = .next { s with
      owned := false, abortp := false, done := true, st := .idle, phase := false
      trace := s.trace ++ [.release s.pin] } := by
  have hp := (position_rel_iff s).2 ⟨hst, hph⟩
  rw [step_of_no_move hm, engineStep_rel hp]
  simp [exec, execRelease, State.portRelease, hp, State.log, State.goTo]

/-! ### The three loops (R107, R109) -/

/-- What a favourable stretch of sending leaves, position and counters aside: the level it set last, nothing more to wait
for, the answers it did not use up and the transactions it issued. -/
def State.sent (s : State) (lv : Level) (oks : List Bool) (sleeps : List Dur) (ts : List Transaction) : State :=
  { s with rem := 0, level := lv, okAnswers := oks, sleepAnswers := sleeps, trace := s.trace ++ ts }

/-- What two stretches of sending leave, one after the other. -/
theorem sent_sent (s : State) (lv lv' : Level) (oks oks' : List Bool) (sleeps sleeps' : List Dur)
    (ts ts' : List Transaction) :
    (s.sent lv oks sleeps ts).sent lv' oks' sleeps' ts' = s.sent lv' oks' sleeps' (ts ++ ts') := by
  simp [State.sent]

theorem planTrace_cons (pin : Word) (g : Segment) (plan : List Segment) :
    planTrace pin (g :: plan) = segmentTrace pin g ++ planTrace pin plan := List.flatMap_cons

/-- Where the last wait of a code's last repeat leads: the next code, or all sent. -/
def afterCode (s : State) : State :=
  if s.k.toNat + 1 < s.ncodes.toNat then { s with seg := 0, r := 0, k := s.k + 1 }.goTo .encoding false
  else { s with seg := 0, r := 0 }.goTo .releasing false

/-- Where the last wait of a plan leads: the next repeat, or what follows the code. -/
def afterPlan (s : State) : State :=
  if s.r.toNat + 1 < s.iterations.toNat then { s with seg := 0, r := s.r + 1, phase := false } else afterCode s

theorem afterWait_of_not_last {s : State} (h : s.seg.toNat < 2 * s.bitlen.toNat + 1) :
    afterWait s = { s with seg := s.seg + 1, phase := false } := if_pos h

theorem afterWait_of_last {s : State} (h : 2 * s.bitlen.toNat + 1 ≤ s.seg.toNat) : afterWait s = afterPlan s :=
  if_neg (by omega)

theorem afterPlan_of_not_last {s : State} (h : s.r.toNat + 1 < s.iterations.toNat) :
    afterPlan s = { s with seg := 0, r := s.r + 1, phase := false } := if_pos h

theorem afterPlan_of_last {s : State} (h : s.iterations.toNat ≤ s.r.toNat + 1) : afterPlan s = afterCode s :=
  if_neg (by omega)

theorem afterCode_of_not_last {s : State} (h : s.k.toNat + 1 < s.ncodes.toNat) :
    afterCode s = { s with seg := 0, r := 0, k := s.k + 1 }.goTo .encoding false := if_pos h

theorem afterCode_of_last {s : State} (h : s.ncodes.toNat ≤ s.k.toNat + 1) :
    afterCode s = { s with seg := 0, r := 0 }.goTo .releasing false := if_neg (by omega)

/-- A counter that stays in its width does not wrap when it advances (R18). -/
theorem toNat_add_one {w : Nat} {x : BitVec w} (h : x.toNat + 1 < 2 ^ w) : (x + 1).toNat = x.toNat + 1 := by
  have one : (1#w).toNat = 1 := (BitVec.toNat_ofNat 1 w).trans (Nat.mod_eq_of_lt (by omega))
  exact (BitVec.toNat_add_of_lt (lt_of_eq_of_lt (congrArg _ one) h)).trans (congrArg _ one)

/-- One segment: SETLEVEL at DRIVE, SLEEP at WAIT, and the end of the wait (R108, R109). -/
theorem run_segment {s : State} {g : Segment} {oks : List Bool} {sleeps : List Dur} (hm : s.moves = [])
    (hst : s.st = .transmitting) (hph : s.phase = false) (hg : s.segment = some g) (ho : s.okAnswers = true :: oks)
    (hz : s.sleepAnswers = 0 :: sleeps) :
    runFor 2 s = .next (afterWait { s.sent g.level oks sleeps (segmentTrace s.pin g) with phase := true }) := by
  rw [run_succ_of_next (step_drive_ok hm hst hph hg ho), run_one]
  refine Eq.trans (step_wait_zero hm hst rfl hz) ?_
  simp [State.sent, segmentTrace]

theorem run_segment_of_not_last {s : State} {g : Segment} {oks : List Bool} {sleeps : List Dur} (hm : s.moves = [])
    (hst : s.st = .transmitting) (hph : s.phase = false) (hg : s.segment = some g) (ho : s.okAnswers = true :: oks)
    (hz : s.sleepAnswers = 0 :: sleeps) (hseg : s.seg.toNat < 2 * s.bitlen.toNat + 1) :
    runFor 2 s = .next { s.sent g.level oks sleeps (segmentTrace s.pin g) with seg := s.seg + 1, phase := false } :=
  (run_segment hm hst hph hg ho hz).trans (congrArg _ (afterWait_of_not_last hseg))

theorem run_segment_of_last {s : State} {g : Segment} {oks : List Bool} {sleeps : List Dur} (hm : s.moves = [])
    (hst : s.st = .transmitting) (hph : s.phase = false) (hg : s.segment = some g) (ho : s.okAnswers = true :: oks)
    (hz : s.sleepAnswers = 0 :: sleeps) (hseg : 2 * s.bitlen.toNat + 1 ≤ s.seg.toNat) :
    runFor 2 s = .next (afterPlan (s.sent g.level oks sleeps (segmentTrace s.pin g))) :=
  (run_segment hm hst hph hg ho hz).trans (congrArg _ (afterWait_of_last hseg))

/-- The segments of a plan from some segment to the last, in order. -/
theorem run_segments {rest : List Segment} {s : State} {oks : List Bool} {sleeps : List Dur} (hm : s.moves = [])
    (hst : s.st = .transmitting) (hph : s.phase = false) (hrest : s.plan.drop s.seg.toNat = rest) (hne : rest ≠ [])
    (hlen : s.seg.toNat + rest.length = 2 * s.bitlen.toNat + 2)
    (ho : s.okAnswers = List.replicate rest.length true ++ oks)
    (hz : s.sleepAnswers = List.replicate rest.length 0 ++ sleeps) :
    ∃ lv, runFor (2 * rest.length) s = .next (afterPlan (s.sent lv oks sleeps (planTrace s.pin rest))) := by
  induction rest generalizing s with
  | nil => exact absurd rfl hne
  | cons g rest ih =>
    rw [List.length_cons] at hlen
    have hg : s.segment = some g := by rw [State.segment, ← List.head?_drop, hrest, List.head?_cons]
    cases rest with
    | nil =>
      have last : 2 * s.bitlen.toNat + 1 ≤ s.seg.toNat := by rw [List.length_nil] at hlen; omega
      rw [planTrace, List.flatMap_singleton]
      exact ⟨g.level, run_segment_of_last hm hst hph hg ho hz last⟩
    | cons g' rest =>
      rw [List.length_cons] at hlen
      have notLast : s.seg.toNat < 2 * s.bitlen.toNat + 1 := by omega
      have next : (s.seg + 1).toNat = s.seg.toNat + 1 := by
        have := s.bitlen.isLt
        exact toNat_add_one (by omega)
      have hrest' : s.plan.drop (s.seg + 1).toNat = g' :: rest := by rw [next, ← List.drop_drop, hrest]; rfl
      have hlen' : (s.seg + 1).toNat + (g' :: rest).length = 2 * s.bitlen.toNat + 2 := by
        rw [next, List.length_cons]; omega
      have first := run_segment_of_not_last hm hst hph hg ho hz notLast
      obtain ⟨lv, others⟩ := ih (s := { s.sent g.level _ _ (segmentTrace s.pin g) with seg := s.seg + 1, phase := false })
        hm hst rfl hrest' (List.cons_ne_nil _ _) hlen' rfl rfl
      rw [List.length_cons, Nat.mul_add_one, Nat.add_comm, run_add first]
      refine ⟨lv, others.trans (congrArg _ ?_)⟩
      rw [planTrace_cons s.pin g, ← sent_sent s g.level lv (List.replicate (g' :: rest).length true ++ oks) oks
        (List.replicate (g' :: rest).length 0 ++ sleeps)]
      -- the end of a plan forgets which segment was sent last, and that it was waited for
      rfl

/-- A whole plan, sent once from its first segment. -/
theorem run_plan {s : State} {oks : List Bool} {sleeps : List Dur} (hm : s.moves = []) (hst : s.st = .transmitting)
    (hph : s.phase = false) (hseg : s.seg = 0) (hlen : s.plan.length = 2 * s.bitlen.toNat + 2)
    (ho : s.okAnswers = List.replicate s.plan.length true ++ oks)
    (hz : s.sleepAnswers = List.replicate s.plan.length 0 ++ sleeps) :
    ∃ lv, runFor (2 * s.plan.length) s = .next (afterPlan (s.sent lv oks sleeps (planTrace s.pin s.plan))) := by
  refine run_segments hm hst hph (by rw [hseg]; rfl) ?_ ?_ ho hz
  · rw [← List.length_pos_iff]; omega
  · rw [hseg, hlen]; exact Nat.zero_add _

/-- The transactions of `repeats` sendings of one plan, back to back. -/
def repeatTrace (repeats : Nat) (pin : Word) (plan : List Segment) : List Transaction :=
  (List.replicate repeats (planTrace pin plan)).flatten

theorem repeatTrace_succ (repeats : Nat) (pin : Word) (plan : List Segment) :
    repeatTrace (repeats + 1) pin plan = planTrace pin plan ++ repeatTrace repeats pin plan := by
  rw [repeatTrace, List.replicate_succ, List.flatten_cons, repeatTrace]

theorem repeatTrace_one (pin : Word) (plan : List Segment) : repeatTrace 1 pin plan = planTrace pin plan :=
  List.append_nil _

/-- `a * (m + 1)` answers are `a` answers and then `a * m`. -/
theorem replicate_mul_succ_append {α : Type} (x : α) (a m : Nat) (rest : List α) :
    List.replicate (a * (m + 1)) x ++ rest = List.replicate a x ++ (List.replicate (a * m) x ++ rest) := by
  rw [Nat.mul_succ, Nat.add_comm, List.replicate_add, List.append_assoc]

/-- The repeats of a code that are left, with the current one (R109). -/
theorem run_repeats {left : Nat} {s : State} {oks : List Bool} {sleeps : List Dur} (hm : s.moves = [])
    (hst : s.st = .transmitting) (hph : s.phase = false) (hseg : s.seg = 0)
    (hlen : s.plan.length = 2 * s.bitlen.toNat + 2) (hr : s.r.toNat + (left + 1) = s.iterations.toNat)
    (ho : s.okAnswers = List.replicate (s.plan.length * (left + 1)) true ++ oks)
    (hz : s.sleepAnswers = List.replicate (s.plan.length * (left + 1)) 0 ++ sleeps) :
    ∃ lv, runFor (2 * s.plan.length * (left + 1)) s =
      .next (afterCode (s.sent lv oks sleeps (repeatTrace (left + 1) s.pin s.plan))) := by
  induction left generalizing s with
  | zero =>
    obtain ⟨lv, once⟩ := run_plan hm hst hph hseg hlen (by rwa [Nat.mul_one] at ho) (by rwa [Nat.mul_one] at hz)
    have lastRepeat : s.iterations.toNat ≤ s.r.toNat + 1 := by omega
    rw [Nat.mul_one, repeatTrace_one]
    exact ⟨lv, once.trans (congrArg _ (afterPlan_of_last lastRepeat))⟩
  | succ left ih =>
    rw [replicate_mul_succ_append] at ho hz
    obtain ⟨lv, once⟩ := run_plan hm hst hph hseg hlen ho hz
    have notLast : s.r.toNat + 1 < s.iterations.toNat := by omega
    have again := once.trans (congrArg _ (afterPlan_of_not_last notLast))
    have hr' : (s.r + 1).toNat + (left + 1) = s.iterations.toNat := by
      have := s.iterations.isLt
      rw [toNat_add_one (by omega)]; omega
    obtain ⟨lv', others⟩ := ih
      (s := { s.sent lv (List.replicate (s.plan.length * (left + 1)) true ++ oks)
        (List.replicate (s.plan.length * (left + 1)) 0 ++ sleeps) (planTrace s.pin s.plan) with
        seg := 0, r := s.r + 1, phase := false })
      hm hst rfl rfl hlen hr' rfl rfl
    rw [Nat.mul_add_one _ (left + 1), Nat.add_comm, run_add again]
    refine ⟨lv', others.trans (congrArg _ ?_)⟩
    rw [repeatTrace_succ (left + 1), ← sent_sent s lv lv' (List.replicate (s.plan.length * (left + 1)) true ++ oks) oks
      (List.replicate (s.plan.length * (left + 1)) 0 ++ sleeps)]
    -- the end of a code forgets the repeats
    rfl

/-- The transactions of some codes, each sent `iterations` times (R101). -/
def codesTrace (codes : List Word) (iterations pin pulseLength bitLength : Word) : List Transaction :=
  codes.flatMap fun c => repeatTrace iterations.toNat pin (planOf c bitLength pulseLength)

theorem codesTrace_cons (c : Word) (codes : List Word) (iterations pin pulseLength bitLength : Word) :
    codesTrace (c :: codes) iterations pin pulseLength bitLength =
      repeatTrace iterations.toNat pin (planOf c bitLength pulseLength) ++
        codesTrace codes iterations pin pulseLength bitLength := List.flatMap_cons

theorem contractTrace_eq (codes : List Word) (iterations pin pulseLength bitLength : Word) :
    contractTrace codes iterations pin pulseLength bitLength =
      .acquire pin true :: .setLevel pin .low true ::
        (codesTrace codes iterations pin pulseLength bitLength ++ [.setLevel pin .low true, .release pin]) := rfl

/-- One code: the ENCODING step, then every repeat of its plan. -/
theorem run_code {s : State} {c : Word} {oks : List Bool} {sleeps : List Dur} (hm : s.moves = [])
    (hst : s.st = .encoding) (ha : s.abortp = false) (hc : memRead s.codes s.k.toNat = some c)
    (hi : s.iterations ≠ 0) (hb : s.bitlen ≠ 0) (hp : s.pulselen ≠ 0)
    (ho : s.okAnswers = List.replicate ((2 * s.bitlen.toNat + 2) * s.iterations.toNat) true ++ oks)
    (hz : s.sleepAnswers = List.replicate ((2 * s.bitlen.toNat + 2) * s.iterations.toNat) 0 ++ sleeps) :
    ∃ lv, runFor (2 * (2 * s.bitlen.toNat + 2) * s.iterations.toNat + 1) s = .next (afterCode
      { s.sent lv oks sleeps (repeatTrace s.iterations.toNat s.pin (planOf c s.bitlen s.pulselen)) with
        plan := planOf c s.bitlen s.pulselen, symOut := [], segOut := [] }) := by
  obtain ⟨left, hleft⟩ : ∃ left, s.iterations.toNat = left + 1 :=
    Nat.exists_eq_add_one_of_ne_zero fun h => hi (BitVec.eq_of_toNat_eq h)
  rw [run_succ_of_next (step_encoding_takes_plan hm hst ha hc hb hp), hleft]
  rw [hleft] at ho hz
  have hlen := planOf_length c s.bitlen s.pulselen
  rw [← hlen] at ho hz ⊢
  exact run_repeats (s := { s with
    plan := planOf c s.bitlen s.pulselen, symOut := [], segOut := [], r := 0, seg := 0
    st := .transmitting, phase := false })
    hm rfl rfl rfl hlen (by rw [hleft]; exact Nat.zero_add _) ho hz

/-- The codes from some code to the last, in order. -/
theorem run_codes {rest : List Word} {s : State} {oks : List Bool} {sleeps : List Dur} (hm : s.moves = [])
    (hst : s.st = .encoding) (ha : s.abortp = false) (hi : s.iterations ≠ 0) (hb : s.bitlen ≠ 0) (hp : s.pulselen ≠ 0)
    (hne : rest ≠ []) (hk : s.k.toNat + rest.length = s.ncodes.toNat)
    (hc : ∀ i (h : i < rest.length), memRead s.codes (s.k.toNat + i) = some rest[i])
    (ho : s.okAnswers = List.replicate ((2 * s.bitlen.toNat + 2) * s.iterations.toNat * rest.length) true ++ oks)
    (hz : s.sleepAnswers = List.replicate ((2 * s.bitlen.toNat + 2) * s.iterations.toNat * rest.length) 0 ++ sleeps) :
    ∃ lv plan k, runFor ((2 * (2 * s.bitlen.toNat + 2) * s.iterations.toNat + 1) * rest.length) s = .next (State.goTo
      { s.sent lv oks sleeps (codesTrace rest s.iterations s.pin s.pulselen s.bitlen) with
        plan := plan, k := k, symOut := [], segOut := [], r := 0, seg := 0 } .releasing false) := by
  induction rest generalizing s with
  | nil => exact absurd rfl hne
  | cons c rest ih =>
    have hfirst : memRead s.codes s.k.toNat = some c := hc 0 (Nat.zero_lt_succ _)
    rw [List.length_cons] at hk
    rw [List.length_cons, replicate_mul_succ_append] at ho hz
    obtain ⟨lv, first⟩ := run_code hm hst ha hfirst hi hb hp ho hz
    cases rest with
    | nil =>
      have lastCode : s.ncodes.toNat ≤ s.k.toNat + 1 := by rw [List.length_nil] at hk; omega
      refine ⟨lv, planOf c s.bitlen s.pulselen, s.k, ?_⟩
      rw [List.length_singleton, Nat.mul_one, codesTrace, List.flatMap_singleton]
      exact first.trans (congrArg _ (afterCode_of_last lastCode))
    | cons c' rest =>
      rw [List.length_cons] at hk
      have notLast : s.k.toNat + 1 < s.ncodes.toNat := by omega
      have next : (s.k + 1).toNat = s.k.toNat + 1 := by
        have := s.ncodes.isLt
        exact toNat_add_one (by omega)
      have hk' : (s.k + 1).toNat + (c' :: rest).length = s.ncodes.toNat := by rw [next, List.length_cons]; omega
      have hc' : ∀ i (h : i < (c' :: rest).length), memRead s.codes ((s.k + 1).toNat + i) = some (c' :: rest)[i] := by
        intro i h
        rw [next, Nat.add_assoc, Nat.add_comm 1 i]
        exact hc (i + 1) (Nat.succ_lt_succ h)
      have sent := first.trans (congrArg _ (afterCode_of_not_last notLast))
      obtain ⟨lv', plan, k, others⟩ := ih
        (s := State.goTo { s.sent lv
            (List.replicate ((2 * s.bitlen.toNat + 2) * s.iterations.toNat * (c' :: rest).length) true ++ oks)
            (List.replicate ((2 * s.bitlen.toNat + 2) * s.iterations.toNat * (c' :: rest).length) 0 ++ sleeps)
            (repeatTrace s.iterations.toNat s.pin (planOf c s.bitlen s.pulselen)) with
          plan := planOf c s.bitlen s.pulselen, symOut := [], segOut := [], seg := 0, r := 0, k := s.k + 1 }
          .encoding false)
        hm rfl ha hi hb hp (List.cons_ne_nil _ _) hk' hc' rfl rfl
      rw [List.length_cons, Nat.mul_add_one, Nat.add_comm, run_add sent]
      refine ⟨lv', plan, k, others.trans ?_⟩
      rw [codesTrace_cons c (c' :: rest)]
      simp [State.sent, State.goTo]

/-! ### The whole run (R101) -/

/-- The handle is taken and the level put LOW (R104, R105). -/
theorem run_acquisition {s : State} {oks : List Bool} (hm : s.moves = []) (hst : s.st = .acquiringPin)
    (hph : s.phase = false) (ho : s.okAnswers = true :: true :: oks) :
    runFor 2 s = .next { s with
      okAnswers := oks, owned := true, level := .low, k := 0, st := .encoding, phase := false
      trace := s.trace ++ [.acquire s.pin true, .setLevel s.pin .low true] } := by
  rw [run_succ_of_next (step_acq_ok hm hst hph ho), run_one]
  refine Eq.trans (step_initLow_ok hm hst rfl rfl) ?_
  simp

/-- The level is put LOW and the handle given up (R110, R111). -/
theorem run_cleanup {s : State} {oks : List Bool} (hm : s.moves = []) (hst : s.st = .releasing)
    (hph : s.phase = false) (ho : s.okAnswers = true :: oks) :
    runFor 2 s = .next { s with
      okAnswers := oks, owned := false, level := .low, abortp := false, done := true, st := .idle, phase := false
      trace := s.trace ++ [.setLevel s.pin .low true, .release s.pin] } := by
  rw [run_succ_of_next (step_finalLow_ok hm hst hph ho), run_one]
  refine Eq.trans (step_rel hm hst rfl) ?_
  simp

/-- `3 + n` favourable answers: two for the acquisition, `n` for the codes and one for the cleanup. -/
theorem replicate_three_add (n : Nat) (oks : List Bool) :
    List.replicate (3 + n) true ++ oks = true :: true :: (List.replicate n true ++ true :: oks) := by
  rw [show 3 + n = n + 1 + 1 + 1 by omega, List.replicate_succ, List.replicate_succ, List.replicate_succ']
  simp

/-- The engine's part of a favourable run: from ACQ back to IDLE it issues the contract's port trace and nothing else
(R101). -/
theorem run_contract {s : State} {codes : List Word} {oks : List Bool} {sleeps : List Dur} (hm : s.moves = [])
    (hst : s.st = .acquiringPin) (hph : s.phase = false) (ha : s.abortp = false) (hn : s.ncodes ≠ 0)
    (hi : s.iterations ≠ 0) (hb : s.bitlen ≠ 0) (hp : s.pulselen ≠ 0) (hl : CodeList s codes)
    (ho : s.okAnswers = List.replicate (3 + codes.length * s.iterations.toNat * (2 * s.bitlen.toNat + 2)) true ++ oks)
    (hz : s.sleepAnswers = List.replicate (codes.length * s.iterations.toNat * (2 * s.bitlen.toNat + 2)) 0 ++ sleeps) :
    ∃ plan k, runFor
        (4 + codes.length + 2 * (codes.length * s.iterations.toNat * (2 * s.bitlen.toNat + 2))) s = .next { s with
      okAnswers := oks, sleepAnswers := sleeps, plan := plan, k := k, r := 0, seg := 0, rem := 0, symOut := []
      segOut := [], owned := false, level := .low, abortp := false, done := true, st := .idle, phase := false
      trace := s.trace ++ contractTrace codes s.iterations s.pin s.pulselen s.bitlen } := by
  obtain ⟨length, listed⟩ := hl
  have some_code : codes ≠ [] := fun h => hn (BitVec.eq_of_toNat_eq (by rw [← length, h]; rfl))
  have answers : codes.length * s.iterations.toNat * (2 * s.bitlen.toNat + 2) =
      (2 * s.bitlen.toNat + 2) * s.iterations.toNat * codes.length := by ring
  have steps : 4 + codes.length + 2 * (codes.length * s.iterations.toNat * (2 * s.bitlen.toNat + 2)) =
      2 + ((2 * (2 * s.bitlen.toNat + 2) * s.iterations.toNat + 1) * codes.length + 2) := by ring
  rw [replicate_three_add, answers] at ho
  rw [answers] at hz
  have acquired := run_acquisition hm hst hph ho
  obtain ⟨lv, plan, k, sent⟩ := run_codes
    (s := { s with
      okAnswers := List.replicate ((2 * s.bitlen.toNat + 2) * s.iterations.toNat * codes.length) true ++ true :: oks
      owned := true, level := .low, k := 0, st := .encoding, phase := false
      trace := s.trace ++ [.acquire s.pin true, .setLevel s.pin .low true] })
    hm rfl ha hi hb hp some_code ((Nat.zero_add _).trans length)
    (fun i h => (congrArg _ (Nat.zero_add i)).trans (listed i h)) rfl hz
  refine ⟨plan, k, ?_⟩
  rw [steps, run_add acquired, run_add sent]
  refine Eq.trans (run_cleanup hm rfl rfl rfl) ?_
  simp [State.sent, State.goTo, contractTrace_eq]

/-- Settles O60: START leads to ACQ with a new run's trace, and the engine then issues the contract's. -/
theorem completeRunIsObservedAsTheContract : Obligations.CompleteRunIsObservedAsTheContract := by
  intro s codes oks sleeps hm idle free hn hi hb hp hl ho hz
  have mask : paramMask s = 0 := (paramMask_eq_zero_iff s).2 ⟨hn, hi, hb, hp⟩
  have start : step s = .next (({ s with moves := [] } : State).clearRun.goTo .acquiringPin false) := by
    rw [step_of_move hm]
    exact execTransmit_of_valid (s := { s with moves := [] }) idle mask
  obtain ⟨plan, k, run⟩ := run_contract
    (s := ({ s with moves := [] } : State).clearRun.goTo .acquiringPin false) rfl rfl rfl rfl hn hi hb hp hl ho hz
  have steps : ∀ n m : Nat, 5 + n + m = 4 + n + m + 1 := by omega
  rw [steps, run_succ_of_next start]
  refine ⟨_, run, ?_⟩
  exact Prod.ext List.drop_left rfl

end Sys2Proof.Machine
end

section
/-! SUPPORT. The host's accesses: what one access can do, and what it leaves. -/

namespace Sys2Proof.Machine

/-! ## What one access of the host can do -/

/-- What a CMD word does: nothing, an ABORT of a run in progress, or a START in IDLE (R31, R102, R114). -/
theorem exec_decodeCmd_cases {w : Word} {s t : State} (h : exec (decodeCmd w) s = .next t) :
    t = s ∨ (s.st ≠ .idle ∧ t = { s with abortp := true }) ∨
    (s.st = .idle ∧ decodeCmd w = .transmit ∧ t = startStep s) := by
  rcases decodeCmd_cases w with hd | hd | hd | hd <;>
    simp only [hd, exec, execNop, execTransmit, execAbort, execCmdReserved] at h <;> cases h
  · exact .inl rfl
  · split
    · exact .inr (.inr ⟨‹_›, hd, rfl⟩)
    · exact .inl rfl
  · split
    · exact .inl rfl
    · exact .inr (.inl ⟨‹_›, rfl⟩)
  · exact .inl rfl

/-- An access is a read, a write to a register, or a CMD word (R13, R31, R46). -/
theorem hostStep_access_cases {a : HostAccess} {s t : State} (h : hostStep a s = .next t) :
    (∃ v, t = { s with rdata := v }) ∨ (∃ i v, a = .write i v ∧ t = regWrite s i v) ∨
    (∃ w, a = .write 0 w ∧ exec (decodeCmd w) s = .next t) := by
  cases a with
  | read i =>
    simp only [hostStep] at h
    split at h <;> cases h
    exact .inl ⟨_, rfl⟩
  | write i v =>
    simp only [hostStep] at h
    split at h
    · rename_i hi
      exact .inr (.inr ⟨v, by rw [hi], h⟩)
    · cases h
      exact .inr (.inl ⟨i, v, rfl, rfl⟩)

theorem regWrite_of_busy {s : State} (h : s.st ≠ .idle) (i : Nat) (v : Word) : regWrite s i v = s :=
  if_pos (by simpa [State.busy] using h)

/-- A register write writes the operand registers and the code list memory only (R13, R30). -/
theorem regWrite_writes_configuration (s : State) (i : Nat) (v : Word) :
    regWrite s i v = { s with
      ncodes := (regWrite s i v).ncodes, iterations := (regWrite s i v).iterations, pin := (regWrite s i v).pin
      pulselen := (regWrite s i v).pulselen, bitlen := (regWrite s i v).bitlen, codes := (regWrite s i v).codes } := by
  unfold regWrite
  split_ifs <;> rfl

/-- A register write keeps the code list memory canonical and within the capacity (R13, R14, R30). -/
theorem regWrite_keeps_codesInRange {s : State} (h : CodesInRange s) (i : Nat) (v : Word) :
    CodesInRange (regWrite s i v) := by
  have ⟨capacity, wf, within, count⟩ := h
  unfold regWrite
  split_ifs with _ _ fits
  · exact h
  · exact ⟨capacity, wf, within, fits⟩
  · exact h
  · exact h
  · exact h
  · exact h
  · exact h
  · refine ⟨capacity, memWrite_wf _ _ wf, fun x hx => ?_, count⟩
    rcases mem_memWrite hx with hx | rfl
    · exact within x hx
    · show i - 16 < s.maxCodes
      omega
  · exact h

/-! ## CMD words (R31, R65) -/

/-- The two low bits of a word that ends in them. -/
theorem extractLsb'_append_two (x : BitVec 30) (code : BitVec 2) : (x ++ code : Word).extractLsb' 0 2 = code :=
  BitVec.extractLsb'_append_eq_right

/-- Settles O5: the decoder looks at the two low bits only. -/
theorem commandWordIgnoresUpperBits : Obligations.CommandWordIgnoresUpperBits := by
  intro x
  simp only [decode, decodeCmd, extractLsb'_append_two]
  exact ⟨rfl, rfl, rfl, rfl⟩

/-- Settles O4: neither operation touches the state. -/
theorem nopAndReservedCommandDoNothing : Obligations.NopAndReservedCommandDoNothing := fun _ => ⟨rfl, rfl⟩

/-- Settles O31: a CMD word is the host's write to index 0. -/
theorem commandWriteRunsTheDecodedOperation : Obligations.CommandWriteRunsTheDecodedOperation := by
  intro s w i rest hm hd
  have decoded : decodeCmd w = i := Except.ok.inj hd
  rw [step_of_move hm, ← decoded]
  rfl

/-- Settles O29: a register write of a run in progress is lost. -/
theorem hostWritesWhileBusyAreLost : Obligations.HostWritesWhileBusyAreLost := by
  intro s i v rest busy hi hm
  rw [step_of_move hm]
  have lost := regWrite_of_busy (s := { s with moves := rest }) busy i v
  simp only [moveStep, hostStep, if_neg hi, lost]

/-- Settles O46: in IDLE the engine takes no step, a register write leaves the record and `DONE`, and of the CMD words
only START writes them. -/
theorem recordOutlivesTheRun : Obligations.RecordOutlivesTheRun := by
  intro s t idle h noStart noReset
  have unmoved : ∀ {ms}, engineStep { s with moves := ms } = .next t →
      t.record = s.record ∧ t.done = s.done ∧ t.st = .idle := by
    intro ms he
    have stays := engineStep_idle (s := { s with moves := ms }) ((position_idle_iff _).2 idle)
    cases stays.symm.trans he
    exact ⟨rfl, rfl, idle⟩
  cases hm : s.moves with
  | nil => exact unmoved (ms := s.moves) (step_of_no_move hm ▸ h)
  | cons m rest =>
    rw [step_of_move hm] at h
    cases m with
    | engine => exact unmoved h
    | reset => exact absurd hm (noReset rest)
    | host a =>
      rcases hostStep_access_cases h with ⟨v, rfl⟩ | ⟨i, v, -, rfl⟩ | ⟨w, rfl, hw⟩
      · exact ⟨rfl, rfl, idle⟩
      · rw [regWrite_writes_configuration]
        exact ⟨rfl, rfl, idle⟩
      · rcases exec_decodeCmd_cases hw with rfl | ⟨busy, -⟩ | ⟨-, start, -⟩
        · exact ⟨rfl, rfl, idle⟩
        · exact absurd idle busy
        · exact absurd (congrArg Except.ok start) (noStart w rest hm)

/-! ## Host reads (R30, R46) -/

theorem hostStep_read {s : State} {i : Nat} {v : Word} (h : regRead s i = some v) :
    hostStep (.read i) s = .next { s with rdata := v } := by
  simp only [hostStep, h]

theorem hostStep_read_none {s : State} {i : Nat} (h : regRead s i = none) :
    hostStep (.read i) s = .fault .codeUnwritten := by
  simp only [hostStep, h]

/-- CMD, the reserved indices and those beyond the capacity read 0. -/
theorem regRead_of_absent {s : State} {i : Nat} (h : i = 0 ∨ (8 ≤ i ∧ i ≤ 15) ∨ 15 + s.maxCodes < i) :
    regRead s i = some 0 := by
  rw [regRead, if_neg (by omega), if_neg (by omega), if_neg (by omega), if_neg (by omega), if_neg (by omega),
    if_neg (by omega), if_neg (by omega), if_neg (by omega)]

theorem regRead_code {s : State} {i : Nat} (h : i < s.maxCodes) : regRead s (16 + i) = memRead s.codes i := by
  rw [regRead, if_neg (by omega), if_neg (by omega), if_neg (by omega), if_neg (by omega), if_neg (by omega),
    if_neg (by omega), if_neg (by omega), if_pos (by omega), Nat.add_sub_cancel_left]

/-- Settles O27, from what each range of indices reads. -/
theorem hostReadsFollowTheRegisterMap : Obligations.HostReadsFollowTheRegisterMap := by
  intro s
  refine ⟨fun i h => hostStep_read (regRead_of_absent h), rfl, rfl, rfl, rfl, rfl, rfl, rfl, fun i w h hw => ?_,
    fun i h hn => ?_⟩
  · exact hostStep_read ((regRead_code h).trans hw)
  · exact hostStep_read_none ((regRead_code h).trans hn)

/-! ## Host writes (R13, R30) -/

theorem hostStep_write {i : Nat} (h : i ≠ 0) (s : State) (v : Word) :
    hostStep (.write i v) s = .next (regWrite s i v) := by
  simp only [hostStep, if_neg h]

/-- What a write in IDLE writes: an operand register, or one code word. -/
theorem regWrite_cases {s : State} {i : Nat} {v : Word} (idle : s.st = .idle)
    (h : (i = 3 ∧ v.toNat ≤ s.maxCodes) ∨ (4 ≤ i ∧ i ≤ 7) ∨ (16 ≤ i ∧ i < 16 + s.maxCodes)) :
    (i = 3 ∧ regWrite s i v = { s with ncodes := v }) ∨ (i = 4 ∧ regWrite s i v = { s with iterations := v }) ∨
    (i = 5 ∧ regWrite s i v = { s with pin := v }) ∨ (i = 6 ∧ regWrite s i v = { s with pulselen := v }) ∨
    (i = 7 ∧ regWrite s i v = { s with bitlen := v }) ∨
    (∃ j, i = 16 + j ∧ j < s.maxCodes ∧ regWrite s i v = { s with codes := memWrite s.codes j v }) := by
  have free : s.busy = false := by simp [State.busy, idle]
  rcases h with ⟨rfl, fits⟩ | ⟨low, high⟩ | ⟨low, high⟩
  · exact .inl ⟨rfl, by simp [regWrite, free, fits]⟩
  · interval_cases i <;> simp [regWrite, free]
  · obtain ⟨j, rfl⟩ := Nat.exists_eq_add_of_le low
    have hj : j < s.maxCodes := by omega
    refine .inr (.inr (.inr (.inr (.inr ⟨j, rfl, hj, ?_⟩))))
    rw [regWrite, if_neg (by simp [free]), if_neg (by omega), if_neg (by omega), if_neg (by omega), if_neg (by omega),
      if_neg (by omega), if_pos (by omega), Nat.add_sub_cancel_left]

/-- STATUS, RESULT, the reserved indices, those beyond the capacity and a count above it are not written. -/
theorem regWrite_ignored {s : State} {i : Nat} {v : Word}
    (h : (i = 3 ∧ s.maxCodes < v.toNat) ∨ i = 1 ∨ i = 2 ∨ (8 ≤ i ∧ i ≤ 15) ∨ 15 + s.maxCodes < i) :
    regWrite s i v = s := by
  by_cases count : i = 3
  · subst count
    have tooLarge : ¬ v.toNat ≤ s.maxCodes := by omega
    simp [regWrite, tooLarge]
  · rw [regWrite, if_neg count, if_neg (show ¬ i = 4 by omega), if_neg (show ¬ i = 5 by omega),
      if_neg (show ¬ i = 6 by omega), if_neg (show ¬ i = 7 by omega),
      if_neg (show ¬ (16 ≤ i ∧ i < 16 + s.maxCodes) by omega), ite_self]

/-- An index reads as before when the code list memory changes at other code words only. -/
theorem regRead_setCodes_other {s : State} {m : Memory} {i : Nat}
    (h : ∀ k, i = 16 + k → memRead m k = memRead s.codes k) :
    regRead { s with codes := m } i = regRead s i := by
  by_cases code : 16 ≤ i ∧ i < 16 + s.maxCodes
  · obtain ⟨k, rfl⟩ := Nat.exists_eq_add_of_le code.1
    have hk : k < s.maxCodes := by omega
    rw [regRead_code (s := { s with codes := m }) hk, regRead_code hk, h k rfl]
  · rw [regRead, regRead, if_neg code, if_neg code]
    rfl

/-- After a write in IDLE its index reads the value, and every other index and code word reads as before. -/
theorem reads_after_regWrite {s : State} {i : Nat} {v : Word} (idle : s.st = .idle)
    (h : (i = 3 ∧ v.toNat ≤ s.maxCodes) ∨ (4 ≤ i ∧ i ≤ 7) ∨ (16 ≤ i ∧ i < 16 + s.maxCodes)) :
    regRead (regWrite s i v) i = some v ∧ (∀ j, j ≠ i → regRead (regWrite s i v) j = regRead s j) ∧
      ∀ j, 16 + j ≠ i → memRead (regWrite s i v).codes j = memRead s.codes j := by
  rcases regWrite_cases idle h with ⟨rfl, e⟩ | ⟨rfl, e⟩ | ⟨rfl, e⟩ | ⟨rfl, e⟩ | ⟨rfl, e⟩ | ⟨k, rfl, hk, e⟩ <;> rw [e]
  case inr.inr.inr.inr.inr =>
    refine ⟨?_, fun j hj => regRead_setCodes_other fun l hl => ?_, fun j hj => ?_⟩
    · rw [regRead_code (s := { s with codes := memWrite s.codes k v }) hk, memRead_memWrite_same]
    · exact memRead_memWrite_other _ _ (by omega)
    · exact memRead_memWrite_other _ _ (by omega)
  all_goals
    refine ⟨rfl, fun j hj => ?_, fun _ _ => rfl⟩
    rw [regRead, regRead, if_neg hj, if_neg hj]
    rfl

/-- Settles O28, from what each range of indices writes and what is then read. -/
theorem hostWritesInIdleAreReadBack : Obligations.HostWritesInIdleAreReadBack := by
  intro s i v idle
  refine ⟨fun h => ?_, fun h => ?_⟩
  · obtain ⟨same, others, words⟩ := reads_after_regWrite idle h
    exact ⟨regWrite s i v, hostStep_write (by omega) s v, same, others, words, regWrite_writes_configuration s i v⟩
  · rw [hostStep_write (by omega), regWrite_ignored h]

/-! ## The STATUS word (R32) -/

/-- The STATUS word as its fields side by side, at the width that is the sum of theirs. -/
theorem statusWord_fields {α : Type} (f : ∀ {w : Nat}, BitVec w → α) (s : State) :
    f (statusWord s) = f (0#12 ++ BitVec.ofBool s.abortp ++ BitVec.ofBool s.cidxv ++ s.badparam ++ s.stage.code ++
      s.result.code ++ s.level.bit ++ BitVec.ofBool s.owned ++ BitVec.ofBool s.done ++ BitVec.ofBool s.busy ++
      BitVec.ofBool s.phase ++ s.st.code) := rfl

/-- The one-bit fields of the STATUS word. -/
theorem statusWord_flags (s : State) :
    (statusWord s).getLsbD 3 = s.phase ∧ (statusWord s).getLsbD 4 = s.busy ∧ (statusWord s).getLsbD 5 = s.done ∧
    (statusWord s).getLsbD 6 = s.owned ∧ (statusWord s).getLsbD 7 = s.level.bit.getLsbD 0 ∧
    (statusWord s).getLsbD 18 = s.cidxv ∧ (statusWord s).getLsbD 19 = s.abortp := by
  rw [statusWord_fields (·.getLsbD 3), statusWord_fields (·.getLsbD 4), statusWord_fields (·.getLsbD 5),
    statusWord_fields (·.getLsbD 6), statusWord_fields (·.getLsbD 7), statusWord_fields (·.getLsbD 18),
    statusWord_fields (·.getLsbD 19)]
  simp [BitVec.getLsbD_append, -Nat.reduceAdd, -BitVec.getLsbD_eq_getElem]

/-- The wider fields of the STATUS word, and the bits above them. -/
theorem statusWord_codes (s : State) :
    (statusWord s).extractLsb' 0 3 = s.st.code ∧ (statusWord s).extractLsb' 8 3 = s.result.code ∧
    (statusWord s).extractLsb' 11 3 = s.stage.code ∧ (statusWord s).extractLsb' 14 4 = s.badparam ∧
    (statusWord s).extractLsb' 20 12 = 0 := by
  rw [statusWord_fields (·.extractLsb' 0 3), statusWord_fields (·.extractLsb' 8 3),
    statusWord_fields (·.extractLsb' 11 3), statusWord_fields (·.extractLsb' 14 4),
    statusWord_fields (·.extractLsb' 20 12)]
  simp [BitVec.extractLsb'_append_eq_of_le, BitVec.extractLsb'_append_eq_of_add_le, -Nat.reduceAdd]

theorem toNat_lt_of_upper_bits_zero {w : Word} (h : w.extractLsb' 20 12 = 0) : w.toNat < 2 ^ 20 := by
  have upper := congrArg BitVec.toNat h
  have bound := w.isLt
  rw [BitVec.extractLsb'_toNat, Nat.shiftRight_eq_div_pow] at upper
  have zero : (0 : BitVec 12).toNat = 0 := rfl
  omega

/-- Settles O26, field by field. -/
theorem statusWordHoldsTheFields : Obligations.StatusWordHoldsTheFields := by
  intro s
  obtain ⟨phase, busy, done, owned, level, cidxv, abortp⟩ := statusWord_flags s
  obtain ⟨st, result, stage, badparam, upper⟩ := statusWord_codes s
  refine ⟨?_, phase, ?_, done, owned, ?_, ?_, ?_, badparam, cidxv, abortp, toNat_lt_of_upper_bits_zero upper,
    hostStep_read rfl, fun v => ?_⟩
  · rw [st]; cases s.st <;> rfl
  · rw [busy, State.busy]; cases s.st <;> rfl
  · rw [level]; cases s.level <;> rfl
  · rw [result]; cases s.result <;> rfl
  · rw [stage]; cases s.stage <;> rfl
  · rw [hostStep_write (by decide), regWrite_ignored (.inr (.inl rfl))]

/-! ## Words placed for the next step (log 7) -/

theorem engineStep_of_portOperation {s : State} {i : Instr} (h : portOperation s = some i) :
    engineStep s = exec i s := by
  simp only [engineStep, h]

/-- A PORT request decodes to a port operation (R67), and a state placed for one issues it and has no move before it. -/
theorem portOperation_placePort {r : BitVec 71} {i : Instr} (h : decodePort r = .ok i) (s : State) :
    portOperation (placePort i s) = some i ∧ (placePort i s).moves = [] := by
  unfold decodePort at h
  split at h
  · split at h
    · cases h
      cases levelOfBit ((portArg r).toNat == 1) <;> exact ⟨rfl, rfl⟩
    · cases h
  all_goals
    cases h
    exact ⟨rfl, rfl⟩

theorem withFetchWord_port {r : BitVec 71} {i : Instr} (h : decodePort r = .ok i) (s : State) :
    s.withFetchWord 72 r.toNat = placePort i s := by
  have placed : s.withFetchWord 72 r.toNat = placeEncoded (.port (BitVec.ofNat 71 r.toNat)) s := rfl
  rw [placed, BitVec.ofNat_toNat, BitVec.setWidth_eq]
  simp only [placeEncoded, h]

theorem withFetchWord_symbol (v : BitVec 1) (s : State) : s.withFetchWord 1 v.toNat = placeSymbol v s := by
  have placed : s.withFetchWord 1 v.toNat = placeEncoded (.symbol (BitVec.ofNat 1 v.toNat) 0) s := rfl
  rw [placed, BitVec.ofNat_toNat, BitVec.setWidth_eq]
  rfl

/-- The plan of a one-bit code: the segments of its symbol, then the footer. -/
theorem planOf_one_bit : ∀ v : BitVec 1,
    planOf (v.setWidth 32) 1 1 = symbolSegments 1 (v == 1) ++ syncSegments 1 := by decide

/-- Settles O33: a CMD word is the next host write, a PORT request is what the engine issues, and a SYMBOL bit is a code of
one bit, whose plan is the segments of its symbol and the footer. -/
theorem placedWordsAreWhatTheNextStepRuns : Obligations.PlacedWordsAreWhatTheNextStepRuns := by
  intro s
  refine ⟨fun w => rfl, fun r i h => ?port, fun v i h => ?symbol⟩
  case port =>
    rw [withFetchWord_port h s]
    obtain ⟨issued, noMove⟩ := portOperation_placePort h s
    exact ⟨(step_of_no_move noMove).trans (engineStep_of_portOperation issued), issued⟩
  case symbol =>
    have code : memRead (placeSymbol v s).codes (placeSymbol v s).k.toNat = some (v.setWidth 32) :=
      memRead_memWrite_same ..
    have taken := step_encoding_takes_plan (s := placeSymbol v s) rfl rfl rfl code (by simp [placeSymbol])
      (by simp [placeSymbol])
    refine ⟨_, symbolSegments 1 (v == 1), syncSegments 1, (withFetchWord_symbol v s).symm ▸ taken, ?_, rfl,
      planOf_one_bit v⟩
    obtain rfl : decodeSymbol (v == 1) 1 = i := Except.ok.inj h
    cases v == 1 <;> rfl

/-! ## Words written out, and the machine after reset -/

/-- Settles O34, by running the decoder. -/
theorem writtenOutWordsDecodeRight : Obligations.WrittenOutWordsDecodeRight :=
  ⟨rfl, rfl, rfl, rfl, rfl, rfl⟩

/-- Settles O37: a START on the unconfigured machine raises with every bit of the mask set. -/
theorem resetLeavesAnUnconfiguredIdleMachine : Obligations.ResetLeavesAnUnconfiguredIdleMachine :=
  ⟨rfl, rfl, rfl, rfl, rfl, rfl, rfl, rfl, rfl, rfl, rfl, rfl, rfl, rfl, rfl, rfl, rfl, rfl, rfl, rfl, rfl, rfl,
    startStep State.reset, rfl, by decide, rfl⟩

end Sys2Proof.Machine
end

section
/-! SUPPORT. The invariant of the step machine: which record an error may leave, what a run that holds the handle keeps,
and the invariant at each position. -/

namespace Sys2Proof.Machine

/-! ## The result record (R29, R151 to R153, R158) -/

/-- The legal values of the result record. -/
def LegalRecord : Cause × Stage × BitVec 4 × Bool × Word → Prop
  | (cause, stage, badparam, cidxv, erridx) =>
    cause ≠ .timingInterrupted ∧ (badparam ≠ 0 ↔ cause = .invalidParameter) ∧ (stage = .none ↔ cause = .none) ∧
    (cause = .aborted → cidxv = true) ∧
    (cidxv = true → stage = .transmit ∧ (cause = .hardwareUnavailable ∨ cause = .aborted)) ∧
    (cidxv = false → erridx = 0)

theorem recordLegal_iff (s : State) :
    RecordLegal s ↔ LegalRecord s.record ∧ (s.abortp = true → s.st ≠ .idle) := by
  simp only [RecordLegal, LegalRecord, State.record, and_assoc]

theorem legalRecord_none : LegalRecord (.none, .none, 0, false, 0) := by simp [LegalRecord]

/-- The record an error leaves where none is there (R154). -/
def ErrorInfo.record (e : ErrorInfo) : Cause × Stage × BitVec 4 × Bool × Word :=
  (e.cause, e.stage, e.badparam, e.codeIndex.isSome, e.codeIndex.getD 0)

theorem legalRecord_acquireError : LegalRecord acquireError.record := by
  simp [LegalRecord, ErrorInfo.record, acquireError]

theorem legalRecord_transmitError (codeIndex : Option Word) : LegalRecord (transmitError codeIndex).record := by
  cases codeIndex <;> simp [LegalRecord, ErrorInfo.record, transmitError]

theorem legalRecord_abortError (k : Word) : LegalRecord (abortError k).record := by
  simp [LegalRecord, ErrorInfo.record, abortError]

/-- The InvalidParameter of a START: its mask is not 0, and the stage of a mask is a stage (R103, R153). -/
theorem legalRecord_invalidParameter {m : BitVec 4} (hm : m ≠ 0) :
    LegalRecord (ErrorInfo.record ⟨.invalidParameter, stageOfMask m, m, none⟩) := by
  have stage : stageOfMask m ≠ .none := by
    unfold stageOfMask
    split_ifs <;> decide
  simpa [LegalRecord, ErrorInfo.record, stage] using hm

theorem legalRecord_writeRecord {s : State} {e : ErrorInfo} (hs : LegalRecord s.record) (he : LegalRecord e.record) :
    LegalRecord (s.writeRecord e).record := by
  by_cases h : s.result = .none
  · rw [writeRecord_of_none h]
    exact he
  · rwa [writeRecord_of_error h]

/-! ## A run that holds the handle -/

theorem codesInRange_congr {s t : State} (h : CodesInRange s) (e : t.configuration = s.configuration) :
    CodesInRange t := by
  simp only [State.configuration, Prod.mk.injEq] at e
  obtain ⟨ncodes, -, -, -, -, codes, maxCodes⟩ := e
  rwa [CodesInRange, ncodes, codes, maxCodes]

theorem paramMask_congr {s t : State} (e : t.configuration = s.configuration) : paramMask t = paramMask s := by
  simp only [State.configuration, Prod.mk.injEq] at e
  obtain ⟨ncodes, iterations, -, pulselen, bitlen, -, -⟩ := e
  rw [paramMask, ncodes, iterations, bitlen, pulselen, paramMask]

/-- What the invariant says of a run that holds the handle, whatever its position. -/
structure HoldingRun (s : State) : Prop where
  codes : CodesInRange s
  valid : paramMask s = 0
  notDone : s.done = false
  owned : s.owned = true
  record : LegalRecord s.record

theorem HoldingRun.congr {s t : State} (run : HoldingRun s) (configuration : t.configuration = s.configuration)
    (done : t.done = s.done) (owned : t.owned = s.owned) (record : t.record = s.record) : HoldingRun t where
  codes := codesInRange_congr run.codes configuration
  valid := (paramMask_congr configuration).trans run.valid
  notDone := done.trans run.notDone
  owned := owned.trans run.owned
  record := record ▸ run.record

theorem HoldingRun.portSetLevel {s : State} (run : HoldingRun s) (q : Word) (lv : Level) :
    HoldingRun (s.portSetLevel q lv) :=
  run.congr (by simp [State.configuration]) (by simp) (by simp) (by simp [State.record])

theorem HoldingRun.portSleep {s : State} (run : HoldingRun s) (q : Word) (d : Dur) : HoldingRun (s.portSleep q d) :=
  run.congr (by simp [State.configuration]) (by simp) (by simp) (by simp [State.record])

theorem HoldingRun.writeRecord {s : State} (run : HoldingRun s) {e : ErrorInfo} (he : LegalRecord e.record) :
    HoldingRun (s.writeRecord e) where
  codes := codesInRange_congr run.codes (by simp [State.configuration])
  valid := (paramMask_congr (by simp [State.configuration])).trans run.valid
  notDone := by simpa using run.notDone
  owned := by simpa using run.owned
  record := legalRecord_writeRecord run.record he

/-- The handle is held in a run only, and the position says in which (R26). -/
theorem Inv.holdingRun {s : State} (inv : Inv s) (idle : s.position ≠ .idle) (acq : s.position ≠ .acq) :
    HoldingRun s where
  codes := inv.codes
  valid := (inv.configured.1 (mt (position_idle_iff s).2 idle)).1
  notDone := (inv.configured.1 (mt (position_idle_iff s).2 idle)).2
  owned := inv.owned.1.2 ⟨idle, acq⟩
  record := ((recordLegal_iff s).1 inv.record).1

/-! ## The invariant, by the value of STATE -/

theorem inv_of_idle {s : State} (codes : CodesInRange s) (record : LegalRecord s.record) (st : s.st = .idle)
    (phase : s.phase = false) (owned : s.owned = false) (abortp : s.abortp = false) : Inv s := by
  have position : s.position = .idle := (position_idle_iff s).2 st
  exact {
    codes := codes
    owned := ⟨by simp [owned, position], fun _ => phase⟩
    configured := ⟨fun h => absurd st h, fun h => absurd position h.1⟩
    counters := by simp [CountersInRange, st]
    plan := by simp [PlanIsCurrent, st]
    wait := by simp [WaitInRange, position]
    record := (recordLegal_iff s).2 ⟨record, by simp [abortp]⟩ }

/-- In ACQUIRING_PIN the handle is held exactly after ACQ, that is where PHASE is 1. -/
theorem inv_of_acquiringPin {s : State} (codes : CodesInRange s) (valid : paramMask s = 0) (done : s.done = false)
    (record : LegalRecord s.record) (result : s.result = .none) (st : s.st = .acquiringPin)
    (owned : s.owned = s.phase) : Inv s where
  codes := codes
  owned := by cases h : s.phase <;> simp [OwnedWhereHeld, position_eq, positionOf, owned, st, h]
  configured := ⟨fun _ => ⟨valid, done⟩, fun _ => result⟩
  counters := by simp [CountersInRange, st]
  plan := by simp [PlanIsCurrent, st]
  wait := by simp [WaitInRange, position_wait_iff, st]
  record := (recordLegal_iff s).2 ⟨record, by simp [st]⟩

theorem HoldingRun.inv_of_encoding {s : State} (run : HoldingRun s) (result : s.result = .none) (st : s.st = .encoding)
    (phase : s.phase = false) (k : s.k.toNat < s.ncodes.toNat) : Inv s where
  codes := run.codes
  owned := by simp [OwnedWhereHeld, position_eq, positionOf, run.owned, st, phase]
  configured := ⟨fun _ => ⟨run.valid, run.notDone⟩, fun _ => result⟩
  counters := ⟨fun _ => k, by simp [st]⟩
  plan := by simp [PlanIsCurrent, st]
  wait := by simp [WaitInRange, position_wait_iff, st]
  record := (recordLegal_iff s).2 ⟨run.record, by simp [st]⟩

theorem HoldingRun.inv_of_transmitting {s : State} (run : HoldingRun s) (result : s.result = .none)
    (st : s.st = .transmitting) (k : s.k.toNat < s.ncodes.toNat) (r : s.r.toNat < s.iterations.toNat)
    (seg : s.seg.toNat < 2 * s.bitlen.toNat + 2) (plan : PlanIsCurrent s) (wait : WaitInRange s) : Inv s where
  codes := run.codes
  owned := by cases h : s.phase <;> simp [OwnedWhereHeld, position_eq, positionOf, run.owned, st, h]
  configured := ⟨fun _ => ⟨run.valid, run.notDone⟩, fun _ => result⟩
  counters := ⟨fun _ => k, fun _ => ⟨r, seg⟩⟩
  plan := plan
  wait := wait
  record := (recordLegal_iff s).2 ⟨run.record, by simp [st]⟩

theorem HoldingRun.inv_of_releasing {s : State} (run : HoldingRun s) (st : s.st = .releasing) : Inv s where
  codes := run.codes
  owned := by cases h : s.phase <;> simp [OwnedWhereHeld, position_eq, positionOf, run.owned, st, h]
  configured := ⟨fun _ => ⟨run.valid, run.notDone⟩,
    by cases h : s.phase <;> simp [Position.beforeCleanup, position_eq, positionOf, st, h]⟩
  counters := by simp [CountersInRange, st]
  plan := by simp [PlanIsCurrent, st]
  wait := by simp [WaitInRange, position_wait_iff, st]
  record := (recordLegal_iff s).2 ⟨run.record, by simp [st]⟩

/-- An error of a run that holds the handle leads to the cleanup (R154). -/
theorem HoldingRun.inv_raise {s : State} (run : HoldingRun s) {e : ErrorInfo} (he : LegalRecord e.record) :
    Inv (s.raise e) := by
  rw [raise_of_owned run.owned]
  exact HoldingRun.inv_of_releasing ((run.writeRecord he).congr rfl rfl rfl rfl) rfl

/-- An error raised while the handle is not held ends the run in IDLE (R154). -/
theorem inv_raise_of_not_owned {s : State} (codes : CodesInRange s) (record : LegalRecord s.record)
    (owned : s.owned = false) {e : ErrorInfo} (he : LegalRecord e.record) : Inv (s.raise e) := by
  rw [raise_of_not_owned owned]
  exact inv_of_idle (codesInRange_congr codes (by simp [State.configuration])) (legalRecord_writeRecord record he) rfl
    rfl (by simpa using owned) rfl

/-! ## The engine's steps keep the invariant -/

theorem inv_acq_step {s t : State} (inv : Inv s) (hp : s.position = .acq) (h : engineStep s = .next t) : Inv t := by
  obtain ⟨st, phase⟩ := (position_acq_iff s).1 hp
  have free : s.owned = false := by simpa [hp] using inv.owned.1
  obtain ⟨valid, done⟩ := inv.configured.1 (by simp [st])
  have result := inv.configured.2 (by simp [hp, Position.beforeCleanup])
  have record := ((recordLegal_iff s).1 inv.record).1
  have same : (s.portAcquire s.pin).configuration = s.configuration := by simp [State.configuration]
  have codes : CodesInRange (s.portAcquire s.pin) := codesInRange_congr inv.codes same
  have record' : LegalRecord (s.portAcquire s.pin).record := by simpa [State.record] using record
  rw [engineStep_acq hp] at h
  simp only [exec, execAcquire, if_pos hp] at h
  split at h <;> cases h
  · exact inv_of_acquiringPin codes ((paramMask_congr same).trans valid) (by simpa using done) record'
      (by simpa using result) (by simpa using st) (by simp [*])
  · exact inv_raise_of_not_owned codes record' (by simp [*]) legalRecord_acquireError

theorem inv_initLow_step {s t : State} (inv : Inv s) (hp : s.position = .initLow) (h : engineStep s = .next t) :
    Inv t := by
  have run := (inv.holdingRun (by simp [hp]) (by simp [hp])).portSetLevel s.pin .low
  have result := inv.configured.2 (by simp [hp, Position.beforeCleanup])
  obtain ⟨count, -⟩ := (paramMask_eq_zero_iff _).1 run.valid
  rw [engineStep_initLow hp] at h
  simp only [exec, execSetLevel, hp] at h
  split at h <;> cases h
  · refine HoldingRun.inv_of_encoding (run.congr rfl rfl rfl rfl) (by simpa using result) rfl rfl ?_
    exact BitVec.toNat_pos_of_ne_zero count
  · exact run.inv_raise legalRecord_acquireError

theorem inv_encoding_step {s t : State} (inv : Inv s) (hp : s.position = .encoding) (h : engineStep s = .next t) :
    Inv t := by
  have st := (position_encoding_iff s).1 hp
  have run := inv.holdingRun (by simp [hp]) (by simp [hp])
  have result := inv.configured.2 (by simp [hp, Position.beforeCleanup])
  obtain ⟨-, iterations, bitlen, pulselen⟩ := (paramMask_eq_zero_iff s).1 run.valid
  rw [engineStep_encoding hp] at h
  rcases encodingStep_cases h with ⟨-, rfl⟩ | ⟨-, hb, -⟩ | ⟨_, -, -, hl, -⟩ | ⟨c, -, -, -, hc, rfl⟩
  · exact run.inv_raise (legalRecord_abortError s.k)
  · exact absurd hb bitlen
  · exact absurd hl pulselen
  · refine HoldingRun.inv_of_transmitting (run.congr rfl rfl rfl rfl) result rfl (inv.counters.1 (.inl st)) ?_ ?_ ?_ ?_
    · exact BitVec.toNat_pos_of_ne_zero iterations
    · simp
    · simp [PlanIsCurrent, hc]
    · simp [WaitInRange, positionOf]

/-- Every segment of a plan lasts at least the pulse length (R68, R97). -/
theorem pulseLength_le_of_mem_planOf {c b p : Word} {g : Segment} (h : g ∈ planOf c b p) :
    p.toNat ≤ g.duration.toNat := by
  have pair : ∀ {hi lo : Nat}, 1 ≤ hi → hi ≤ 31 → 1 ≤ lo → lo ≤ 31 → g ∈ segmentPair hi lo p →
      p.toNat ≤ g.duration.toNat := by
    intro hi lo hi1 hi31 lo1 lo31 hg
    simp only [segmentPair, List.mem_cons, List.not_mem_nil, or_false] at hg
    rcases hg with rfl | rfl
    · rw [duration_toNat hi31]; exact Nat.le_mul_of_pos_left _ hi1
    · rw [duration_toNat lo31]; exact Nat.le_mul_of_pos_left _ lo1
  rw [planOf, schedulePlan, List.mem_append, List.mem_flatMap] at h
  rcases h with ⟨v, -, hv⟩ | hs
  · cases v
    · exact pair (by decide) (by decide) (by decide) (by decide) hv
    · exact pair (by decide) (by decide) (by decide) (by decide) hv
  · exact pair (by decide) (by decide) (by decide) (by decide) hs

theorem inv_drive_step {s t : State} (inv : Inv s) (hp : s.position = .drive) (h : engineStep s = .next t) : Inv t := by
  obtain ⟨st, -⟩ := (position_drive_iff s).1 hp
  have held := inv.holdingRun (by simp [hp]) (by simp [hp])
  have result := inv.configured.2 (by simp [hp, Position.beforeCleanup])
  obtain ⟨r, seg⟩ := inv.counters.2 st
  obtain ⟨-, -, -, pulselen⟩ := (paramMask_eq_zero_iff s).1 held.valid
  cases hg : s.segment with
  | none => rw [engineStep_drive_none hp hg] at h; cases h
  | some g =>
    have run := held.portSetLevel s.pin g.level
    rw [engineStep_drive hp hg] at h
    simp only [exec, execSetLevel, hp, hg] at h
    split at h <;> cases h
    · rename_i ok
      refine HoldingRun.inv_of_transmitting (run.congr rfl rfl rfl rfl) (by simpa using result) (by simpa using st)
        (by simpa using inv.counters.1 (.inr st)) (by simpa using r) (by simpa using seg) ?_ fun _ => ⟨?_, g, ?_⟩
      · simpa [PlanIsCurrent] using inv.plan
      · obtain ⟨c, -, hc⟩ := Option.map_eq_some_iff.1 (inv.plan st)
        have member : g ∈ planOf c s.bitlen s.pulselen := hc ▸ List.mem_of_getElem? hg
        exact (BitVec.toNat_pos_of_ne_zero pulselen).trans_le (pulseLength_le_of_mem_planOf member)
      · simpa [State.segment, ok] using hg
    · exact run.inv_raise (legalRecord_transmitError _)

/-- The end of a wait keeps the invariant: a counter advances only within its bound (R18, R109). -/
theorem HoldingRun.inv_afterWait {s : State} (run : HoldingRun s) (result : s.result = .none)
    (st : s.st = .transmitting) (k : s.k.toNat < s.ncodes.toNat) (r : s.r.toNat < s.iterations.toNat)
    (plan : PlanIsCurrent s) : Inv (afterWait s) := by
  have bitlen := s.bitlen.isLt
  obtain ⟨-, iterations, -, -⟩ := (paramMask_eq_zero_iff s).1 run.valid
  have driving : ∀ {t : State}, t.phase = false → WaitInRange t := fun phase h => by
    simp [position_wait_iff, phase] at h
  rcases afterWait_cases s with ⟨more, e⟩ | ⟨-, more, e⟩ | ⟨-, -, more, e⟩ | ⟨-, -, -, e⟩ <;> rw [e]
  · refine HoldingRun.inv_of_transmitting (run.congr rfl rfl rfl rfl) result st k r ?_ plan (driving rfl)
    rw [toNat_add_one (by omega)]
    exact Nat.succ_lt_succ more
  · refine HoldingRun.inv_of_transmitting (run.congr rfl rfl rfl rfl) result st k ?_ (by simp) plan (driving rfl)
    rw [toNat_add_one (by omega)]
    exact more
  · refine HoldingRun.inv_of_encoding (run.congr rfl rfl rfl rfl) result rfl rfl ?_
    rw [toNat_add_one (by omega)]
    exact more
  · exact HoldingRun.inv_of_releasing (run.congr rfl rfl rfl rfl) rfl

theorem inv_wait_step {s t : State} (inv : Inv s) (hp : s.position = .wait) (h : engineStep s = .next t) : Inv t := by
  obtain ⟨st, -⟩ := (position_wait_iff s).1 hp
  have run := (inv.holdingRun (by simp [hp]) (by simp [hp])).portSleep s.pin s.rem
  have result := inv.configured.2 (by simp [hp, Position.beforeCleanup])
  have k := inv.counters.1 (.inr st)
  obtain ⟨r, seg⟩ := inv.counters.2 st
  obtain ⟨-, g, hg, rem, level⟩ := inv.wait hp
  rw [engineStep_wait hp] at h
  obtain ⟨bound, ⟨elsewhere, -⟩ | ⟨-, early, rfl⟩ | ⟨-, -, rfl⟩⟩ := execSleep_cases h
  · exact absurd hp elsewhere
  · refine HoldingRun.inv_of_transmitting (run.congr rfl rfl rfl rfl) (by simpa using result) (by simpa using st)
      (by simpa using k) (by simpa using r) (by simpa using seg) ?_ fun _ => ⟨?_, g, ?_, ?_, ?_⟩
    · simpa [PlanIsCurrent] using inv.plan
    · exact BitVec.toNat_pos_of_ne_zero early
    · simpa [State.segment] using hg
    · exact BitVec.le_trans bound rem
    · simpa using level
  · exact HoldingRun.inv_afterWait (run.congr rfl rfl rfl rfl) (by simpa using result) (by simpa using st)
      (by simpa using k) (by simpa using r) (by simpa [PlanIsCurrent] using inv.plan)

theorem inv_finalLow_step {s t : State} (inv : Inv s) (hp : s.position = .finalLow) (h : engineStep s = .next t) :
    Inv t := by
  obtain ⟨st, -⟩ := (position_finalLow_iff s).1 hp
  have run := (inv.holdingRun (by simp [hp]) (by simp [hp])).portSetLevel s.pin .low
  rw [engineStep_finalLow hp] at h
  simp only [exec, execSetLevel, hp] at h
  cases h
  split
  · exact HoldingRun.inv_of_releasing (run.congr rfl rfl rfl rfl) (by simpa using st)
  · exact HoldingRun.inv_of_releasing ((run.writeRecord (legalRecord_transmitError none)).congr rfl rfl rfl rfl)
      (by simpa using st)

theorem inv_rel_step {s t : State} (inv : Inv s) (hp : s.position = .rel) (h : engineStep s = .next t) : Inv t := by
  have run := inv.holdingRun (by simp [hp]) (by simp [hp])
  rw [engineStep_rel hp] at h
  simp only [exec, execRelease, if_pos hp] at h
  cases h
  exact inv_of_idle run.codes run.record rfl rfl rfl rfl

theorem engineStep_keeps_inv {s t : State} (inv : Inv s) (h : engineStep s = .next t) : Inv t := by
  cases hp : s.position with
  | idle => rw [engineStep_idle hp] at h; cases h; exact inv
  | acq => exact inv_acq_step inv hp h
  | initLow => exact inv_initLow_step inv hp h
  | encoding => exact inv_encoding_step inv hp h
  | drive => exact inv_drive_step inv hp h
  | wait => exact inv_wait_step inv hp h
  | finalLow => exact inv_finalLow_step inv hp h
  | rel => exact inv_rel_step inv hp h

/-! ## The host's accesses and the reset keep the invariant -/

/-- START clears the record before it validates, so either a run begins or an InvalidParameter is recorded (R103). -/
theorem startStep_keeps_inv {s : State} (inv : Inv s) (idle : s.st = .idle) : Inv (startStep s) := by
  have free := inv.not_owned_of_idle idle
  unfold startStep
  split
  · rename_i valid
    exact inv_of_acquiringPin inv.codes valid rfl legalRecord_none rfl rfl free
  · rename_i invalid
    exact inv_raise_of_not_owned (s := s.clearRun) inv.codes legalRecord_none free
      (legalRecord_invalidParameter invalid)

theorem regWrite_keeps_inv {s : State} (inv : Inv s) (i : Nat) (v : Word) : Inv (regWrite s i v) := by
  by_cases idle : s.st = .idle
  · have codes := regWrite_keeps_codesInRange inv.codes i v
    obtain ⟨record, abortp⟩ := (recordLegal_iff s).1 inv.record
    rw [regWrite_writes_configuration] at codes ⊢
    exact inv_of_idle codes record idle (inv.owned.2 (.inl idle)) (inv.not_owned_of_idle idle)
      (by simpa [idle] using abortp)
  · rwa [regWrite_of_busy idle]

theorem hostStep_keeps_inv {a : HostAccess} {s t : State} (inv : Inv s) (h : hostStep a s = .next t) : Inv t := by
  rcases hostStep_access_cases h with ⟨v, rfl⟩ | ⟨i, v, -, rfl⟩ | ⟨w, -, hw⟩
  · exact ⟨inv.codes, inv.owned, inv.configured, inv.counters, inv.plan, inv.wait, inv.record⟩
  · exact regWrite_keeps_inv inv i v
  · rcases exec_decodeCmd_cases hw with rfl | ⟨busy, rfl⟩ | ⟨idle, -, rfl⟩
    · exact inv
    · exact ⟨inv.codes, inv.owned, inv.configured, inv.counters, inv.plan, inv.wait,
        (recordLegal_iff _).2 ⟨((recordLegal_iff s).1 inv.record).1, fun _ => busy⟩⟩
    · exact startStep_keeps_inv inv idle

theorem toReset_keeps_inv {s : State} (inv : Inv s) : Inv s.toReset :=
  inv_of_idle ⟨inv.codes.1, List.Pairwise.nil, by simp [State.toReset, State.reset], Nat.zero_le _⟩ legalRecord_none
    rfl rfl rfl rfl

/-- Settles O49: the engine keeps the invariant at each position, the host's accesses and a reset keep it in IDLE, and a
run in progress takes only ABORT from the host. -/
theorem stepKeepsTheMachineInvariant : Obligations.StepKeepsTheMachineInvariant := by
  intro s t inv h
  obtain ⟨ms, he | ⟨a, ha⟩ | ⟨-, rfl⟩⟩ := step_cases h
  · exact engineStep_keeps_inv (inv.with_moves ms) he
  · exact hostStep_keeps_inv (inv.with_moves ms) ha
  · exact toReset_keeps_inv (inv.with_moves ms)

/-- Settles O51: after reset the machine is idle and nothing has been issued. -/
theorem resetMeetsInvariantAndProtocol : Obligations.ResetMeetsInvariantAndProtocol :=
  ⟨inv_of_idle ⟨by decide, reset_codes_wf, by simp [State.reset], by decide⟩ legalRecord_none rfl rfl rfl rfl,
    le_rfl, rfl, rfl⟩

end Sys2Proof.Machine
end

section
/-! SUPPORT. The engine's steps: what they leave unchanged, and which fields of the state they do not read. -/

namespace Sys2Proof.Machine

/-! ## The configuration and the counters -/

/-- Settles O40: whatever a step of the engine issues, it leaves the configuration. -/
theorem engineNeverWritesTheConfiguration : Obligations.EngineNeverWritesTheConfiguration := by
  intro s t h
  obtain ⟨xs, issues⟩ := engineStep_issues h
  exact issues.configuration

/-- A SETLEVEL moves no counter, but for `k` at INIT_LOW (R105). -/
theorem execSetLevel_counters {q : Word} {lv : Level} {s t : State} (h : execSetLevel q lv s = .next t) :
    (t.k = s.k ∨ (s.position = .initLow ∧ t.k = 0)) ∧ t.r = s.r ∧ t.seg = s.seg := by
  simp only [execSetLevel] at h
  cases hp : s.position <;> cases hg : s.segment <;> simp only [hp, hg] at h <;> cases h
  all_goals split <;> simp

/-- The ENCODING step leaves `k`, and leaves `r` and `s` or clears both (R106). -/
theorem encodingStep_counters {s t : State} (h : encodingStep s = .next t) :
    t.k = s.k ∧ (t.r = s.r ∨ t.r = 0) ∧ (t.seg = s.seg ∨ t.seg = 0) := by
  rcases encodingStep_cases h with ⟨-, rfl⟩ | ⟨-, -, rfl⟩ | ⟨_, -, -, -, -, rfl⟩ | ⟨_, -, -, -, -, rfl⟩ <;> simp

/-- Settles O42, by the position of the step. -/
theorem countersAdvanceOnlyInWait : Obligations.CountersAdvanceOnlyInWait := by
  intro s t h notWait
  have setLevel : ∀ {lv}, execSetLevel s.pin lv s = .next t →
      (t.k = s.k ∨ (s.st = .acquiringPin ∧ s.phase = true ∧ t.k = 0)) ∧
      (t.r = s.r ∨ (s.st = .encoding ∧ t.r = 0)) ∧ (t.seg = s.seg ∨ (s.st = .encoding ∧ t.seg = 0)) := by
    intro lv he
    obtain ⟨k, r, seg⟩ := execSetLevel_counters he
    rw [position_initLow_iff, and_assoc] at k
    exact ⟨k, .inl r, .inl seg⟩
  cases hp : s.position with
  | idle => rw [engineStep_idle hp] at h; cases h; simp
  | acq =>
    rw [engineStep_acq hp] at h
    simp only [exec, execAcquire, if_pos hp] at h
    split at h <;> cases h <;> simp
  | initLow => exact setLevel (engineStep_initLow hp ▸ h)
  | encoding =>
    have st := (position_encoding_iff s).1 hp
    obtain ⟨k, r, seg⟩ := encodingStep_counters (engineStep_encoding hp ▸ h)
    exact ⟨.inl k, r.imp_right fun h => ⟨st, h⟩, seg.imp_right fun h => ⟨st, h⟩⟩
  | drive =>
    cases hg : s.segment with
    | none => rw [engineStep_drive_none hp hg] at h; cases h
    | some g => exact setLevel (engineStep_drive hp hg ▸ h)
  | wait => exact absurd ((position_wait_iff s).1 hp) notWait
  | finalLow => exact setLevel (engineStep_finalLow hp ▸ h)
  | rel =>
    rw [engineStep_rel hp] at h
    simp only [exec, execRelease, if_pos hp] at h
    cases h
    simp

/-! ## States that agree but for one field

`LEVEL`, `ABORTP` and the code list memory: each is hidden in turn, and the port operations run alike on states that
agree in everything else. Only the ENCODING step reads two of the three. -/

/-- The fields to hide. -/
inductive Hidden where
  | level
  | abortp
  | codes

/-- The state with the hidden field at a fixed value. -/
def State.hide : Hidden → State → State
  | .level, s => { s with level := .low }
  | .abortp, s => { s with abortp := false }
  | .codes, s => { s with codes := [] }

/-- Two states agree in every field but the hidden one. -/
def SameBut (x : Hidden) (s t : State) : Prop := s.hide x = t.hide x

/-- Where the first answer is a next state, so is the second, and the two agree but for the hidden field. -/
def Follows (x : Hidden) (o o' : Answer) : Prop := ∀ t, o = .next t → ∃ u, o' = .next u ∧ SameBut x t u

section
variable {x : Hidden} {s s' : State}

/-- What does not read the hidden field is alike. -/
theorem SameBut.read (h : SameBut x s s') {α : Type} (f : State → α)
    (hf : ∀ x s, f (State.hide x s) = f s := by rintro (_ | _ | _) s <;> rfl) : f s' = f s :=
  (hf x s').symm.trans ((congrArg f h.symm).trans (hf x s))

/-- What does not read the hidden field, but at most writes it, keeps the states alike. -/
theorem SameBut.write (h : SameBut x s s') (f : State → State)
    (hf : ∀ x s, (f (State.hide x s)).hide x = (f s).hide x := by rintro (_ | _ | _) s <;> rfl) :
    SameBut x (f s) (f s') :=
  (hf x s).symm.trans ((congrArg (fun u => (f u).hide x) h).trans (hf x s'))

theorem SameBut.ite {t t' : State} {c c' : Prop} [Decidable c] [Decidable c'] (hc : c' = c) (h : SameBut x s s')
    (ht : SameBut x t t') : SameBut x (if c then s else t) (if c' then s' else t') := by
  subst hc
  split
  · exact h
  · exact ht

theorem follows_next (h : SameBut x s s') : Follows x (.next s) (.next s') := by
  rintro _ ⟨⟩
  exact ⟨s', rfl, h⟩

theorem follows_fault (e : Fault) (o : Answer) : Follows x (.fault e) o := by rintro _ ⟨⟩

theorem follows_refused (e : Refusal) (o : Answer) : Follows x (.refused e) o := by rintro _ ⟨⟩

/-! The operations over the state. -/

theorem SameBut.goTo (h : SameBut x s s') (q : SeqState) (b : Bool) : SameBut x (s.goTo q b) (s'.goTo q b) :=
  h.write (State.goTo · q b)

theorem SameBut.log (h : SameBut x s s') (y : Transaction) : SameBut x (s.log y) (s'.log y) :=
  h.write (State.log · y)

theorem SameBut.okAnswerTaken (h : SameBut x s s') : SameBut x s.okAnswerTaken s'.okAnswerTaken := by
  rw [State.okAnswerTaken, State.okAnswerTaken, h.read State.okAnswers]
  cases s.okAnswers with
  | nil => exact h.write fun s => { s with okAnswers := [], draws := s.draws + 1 }
  | cons a rest => exact h.write fun s => { s with okAnswers := rest }

theorem SameBut.sleepAnswerTaken (h : SameBut x s s') : SameBut x s.sleepAnswerTaken s'.sleepAnswerTaken := by
  rw [State.sleepAnswerTaken, State.sleepAnswerTaken, h.read State.sleepAnswers]
  cases s.sleepAnswers with
  | nil => exact h.write fun s => { s with sleepAnswers := [], draws := s.draws + 1 }
  | cons a rest => exact h.write fun s => { s with sleepAnswers := rest }

theorem SameBut.writeRecord (h : SameBut x s s') (e : ErrorInfo) : SameBut x (s.writeRecord e) (s'.writeRecord e) :=
  .ite (h.read fun t => t.result = .none) (h.write fun s => { s with
    result := e.cause, stage := e.stage, badparam := e.badparam, cidxv := e.codeIndex.isSome
    erridx := e.codeIndex.getD 0 }) h

theorem SameBut.raise (h : SameBut x s s') (e : ErrorInfo) : SameBut x (s.raise e) (s'.raise e) := by
  have recorded := h.writeRecord e
  exact .ite (recorded.read fun t => t.owned = true) (recorded.goTo ..)
    (recorded.write fun t => { t.goTo .idle false with done := true, abortp := false })

/-- A SETLEVEL writes `LEVEL` only where it is answered `ok` (R27, R132). -/
theorem portSetLevel_eq (s : State) (q : Word) (lv : Level) :
    s.portSetLevel q lv =
      if s.okAnswer then { s.okAnswerTaken.log (.setLevel q lv s.okAnswer) with level := lv }
      else s.okAnswerTaken.log (.setLevel q lv s.okAnswer) := by
  rw [State.portSetLevel, ← okAnswerTaken_level s, ← log_level s.okAnswerTaken (.setLevel q lv s.okAnswer)]
  split <;> rfl

theorem SameBut.portSetLevel (h : SameBut x s s') (q : Word) (lv : Level) :
    SameBut x (s.portSetLevel q lv) (s'.portSetLevel q lv) := by
  have logged := h.okAnswerTaken.log (.setLevel q lv s.okAnswer)
  rw [portSetLevel_eq, portSetLevel_eq, h.read State.okAnswer]
  exact .ite rfl (logged.write fun t => { t with level := lv }) logged

theorem SameBut.portAcquire (h : SameBut x s s') (q : Word) : SameBut x (s.portAcquire q) (s'.portAcquire q) := by
  have logged := h.okAnswerTaken.log (.acquire q s.okAnswer)
  rw [State.portAcquire, State.portAcquire, h.read State.okAnswer, h.read State.owned]
  exact logged.write fun t => { t with owned := s.okAnswer || s.owned }

theorem SameBut.portSleep (h : SameBut x s s') (q : Word) (d : Dur) :
    SameBut x (s.portSleep q d) (s'.portSleep q d) := by
  rw [State.portSleep, State.portSleep, h.read (State.sleepAnswer · d)]
  exact h.sleepAnswerTaken.log _

theorem SameBut.portRelease (h : SameBut x s s') (q : Word) : SameBut x (s.portRelease q) (s'.portRelease q) :=
  h.write (State.portRelease · q)

theorem SameBut.afterWait (h : SameBut x s s') : SameBut x (afterWait s) (afterWait s') := by
  refine .ite (h.read fun t => t.seg.toNat < 2 * t.bitlen.toNat + 1) ?_
    (.ite (h.read fun t => t.r.toNat + 1 < t.iterations.toNat) ?_
      (.ite (h.read fun t => t.k.toNat + 1 < t.ncodes.toNat) ?_ ?_))
  · exact h.write fun t => { t with seg := t.seg + 1, phase := false }
  · exact h.write fun t => { t with seg := 0, r := t.r + 1, phase := false }
  · exact h.write fun t => { t with seg := 0, r := 0, k := t.k + 1 }.goTo .encoding false
  · exact h.write fun t => { t with seg := 0, r := 0 }.goTo .releasing false

/-! The steps of the engine. -/

theorem SameBut.execSetLevel (h : SameBut x s s') (q : Word) (lv : Level) :
    Follows x (execSetLevel q lv s) (execSetLevel q lv s') := by
  have sent := h.portSetLevel q lv
  have raised := sent.raise
  simp only [Machine.execSetLevel, h.read State.position, h.read State.segment, h.read State.okAnswer, h.read State.k]
  cases s.position
  case initLow =>
    exact follows_next (.ite rfl (sent.write fun t => { t with k := 0 }.goTo .encoding false) (raised _))
  case drive =>
    cases s.segment with
    | none => exact follows_fault _ _
    | some g => exact follows_next (.ite rfl (sent.write fun t => { t with rem := g.duration, phase := true }) (raised _))
  case finalLow =>
    exact follows_next ((SameBut.ite rfl sent (sent.writeRecord _)).write fun t => { t with phase := true })
  all_goals exact follows_next (.ite rfl sent (raised _))

theorem SameBut.execAcquire (h : SameBut x s s') (q : Word) : Follows x (execAcquire q s) (execAcquire q s') := by
  have sent := h.portAcquire q
  simp only [Machine.execAcquire, h.read State.position, h.read State.okAnswer]
  split
  · exact follows_next (.ite rfl (sent.write fun t => { t with phase := true }) sent)
  · exact follows_next (sent.raise _)

theorem SameBut.execRelease (h : SameBut x s s') (q : Word) : Follows x (execRelease q s) (execRelease q s') := by
  have sent := h.portRelease q
  simp only [Machine.execRelease, h.read State.position]
  exact follows_next (.ite rfl (sent.write fun t => { t with abortp := false, done := true }.goTo .idle false) sent)

theorem SameBut.execSleep (h : SameBut x s s') (q : Word) (d : Dur) :
    Follows x (execSleep q d s) (execSleep q d s') := by
  have sent := h.portSleep q d
  simp only [Machine.execSleep, h.read State.position, h.read (State.sleepAnswer · d)]
  split
  · cases s.position
    case wait =>
      exact follows_next (.ite rfl (sent.write fun t => { t with rem := 0 }).afterWait
        (sent.write fun t => { t with rem := s.sleepAnswer d }))
    all_goals exact follows_next sent
  · exact follows_refused _ _

/-- The ENCODING step reads `ABORTP` and the code at `k`. -/
theorem SameBut.encodingStep (h : SameBut x s s') (abortp : s'.abortp = s.abortp)
    (code : memRead s'.codes s.k.toNat = memRead s.codes s.k.toNat) :
    Follows x (encodingStep s) (encodingStep s') := by
  simp only [Machine.encodingStep, h.read State.k, h.read State.bitlen, h.read State.pulselen, abortp, code]
  split
  · exact follows_next (h.raise _)
  · cases memRead s.codes s.k.toNat with
    | none => exact follows_fault _ _
    | some c =>
      simp only [exec, execEncode, execSchedule]
      by_cases hb : s.bitlen = 0
      · simp only [if_pos hb, andThen_next]
        exact follows_next (h.raise _)
      · by_cases hp : s.pulselen = 0
        · simp only [if_neg hb, if_pos hp, andThen_next]
          exact follows_next ((h.write fun t => { t with symOut := encodeCode c.toNat s.bitlen.toNat }).raise _)
        · simp only [if_neg hb, if_neg hp, andThen_next]
          exact follows_next (h.write fun t => { t with
            plan := planOf c s.bitlen s.pulselen, symOut := [], segOut := [], r := 0, seg := 0
            st := .transmitting, phase := false })

theorem SameBut.engineStep (h : SameBut x s s')
    (encoding : s.position = .encoding →
      s'.abortp = s.abortp ∧ memRead s'.codes s.k.toNat = memRead s.codes s.k.toNat) :
    Follows x (engineStep s) (engineStep s') := by
  have position := h.read State.position
  have pin := h.read State.pin
  cases hp : s.position <;> rw [hp] at position
  case idle => rw [engineStep_idle position, engineStep_idle hp]; exact follows_next h
  case acq => rw [engineStep_acq position, engineStep_acq hp, pin]; exact h.execAcquire s.pin
  case initLow => rw [engineStep_initLow position, engineStep_initLow hp, pin]; exact h.execSetLevel s.pin .low
  case encoding =>
    obtain ⟨abortp, code⟩ := encoding hp
    rw [engineStep_encoding position, engineStep_encoding hp]
    exact h.encodingStep abortp code
  case drive =>
    have segment := h.read State.segment
    cases hg : s.segment with
    | none => rw [engineStep_drive_none hp hg]; exact follows_fault _ _
    | some g =>
      rw [engineStep_drive position (segment.trans hg), engineStep_drive hp hg, pin]
      exact h.execSetLevel s.pin g.level
  case wait => rw [engineStep_wait position, engineStep_wait hp, pin, h.read State.rem]; exact h.execSleep s.pin s.rem
  case finalLow => rw [engineStep_finalLow position, engineStep_finalLow hp, pin]; exact h.execSetLevel s.pin .low
  case rel => rw [engineStep_rel position, engineStep_rel hp, pin]; exact h.execRelease s.pin

end

/-- Settles O43: no step reads `LEVEL`, the ENCODING step included. -/
theorem levelDecidesNothing : Obligations.LevelDecidesNothing := by
  intro s t lv h
  have same : SameBut .level s { s with level := lv } := rfl
  obtain ⟨u, hu, after⟩ := same.engineStep (fun _ => ⟨rfl, rfl⟩) t h
  exact ⟨u, hu, (congrArg (fun v => { v with level := t.level }) after).symm⟩

/-- Settles O44: outside ENCODING no step reads `ABORTP`. -/
theorem abortRequestIsReadOnlyInEncoding : Obligations.AbortRequestIsReadOnlyInEncoding := by
  intro s t b hst h
  have same : SameBut .abortp s { s with abortp := b } := rfl
  obtain ⟨u, hu, after⟩ := same.engineStep (fun hp => absurd ((position_encoding_iff s).1 hp) hst) t h
  exact ⟨u, hu, (congrArg (fun v => { v with abortp := t.abortp }) after).symm⟩

/-- Settles O45: the ENCODING step alone reads the code list memory, at `k`, which is below `NCODES` there; and no step
writes it. -/
theorem codesAboveTheCountAreNeverRead : Obligations.CodesAboveTheCountAreNeverRead := by
  intro s t m inv agree h
  have same : SameBut .codes s { s with codes := m } := rfl
  have code_read : s.position = .encoding → memRead m s.k.toNat = memRead s.codes s.k.toNat := fun hp =>
    agree _ (inv.counters.1 (.inl ((position_encoding_iff s).1 hp)))
  obtain ⟨u, hu, after⟩ := same.engineStep (fun hp => ⟨rfl, code_read hp⟩) t h
  have kept : u.codes = m :=
    congrArg (fun c => c.2.2.2.2.2.1) (engineNeverWritesTheConfiguration { s with codes := m } u hu)
  rw [hu, ← kept]
  exact congrArg (fun v => Host.Outcome.next { v with codes := u.codes }) after.symm

end Sys2Proof.Machine
end

section
/-! SUPPORT. What a step appends to the port trace, and where a step can fault. -/

namespace Sys2Proof.Machine

/-! ## One transaction at most (O39) -/

/-- A step of the engine issues the one transaction of its port operation, or none (R48, R119). -/
theorem engineStep_trace {s t : State} (h : engineStep s = .next t) :
    t.trace = s.trace ∨ ∃ x, t.trace = s.trace ++ [x] := by
  rcases engineStep_cases h with ⟨-, rfl⟩ | ⟨-, he⟩ | ⟨i, x, -, hx, he⟩
  · exact .inl rfl
  · exact .inl ((encodingStep_issues_nothing he).trace.trans (List.append_nil _))
  · exact .inr ⟨x, (exec_issues hx he).trace⟩

/-- The host's accesses issue no transaction (R46). -/
theorem hostStep_trace {a : HostAccess} {s t : State} (h : hostStep a s = .next t) : t.trace = s.trace := by
  rcases hostStep_cases h with ⟨v, rfl⟩ | ⟨i, v, rfl⟩ | rfl | rfl | ⟨-, rfl⟩
  · rfl
  · exact (regWrite_frame s i v).1
  · rfl
  · rfl
  · exact (startStep_frame s).1

/-- Settles O39: the engine issues one transaction at most, and neither the host's accesses nor a reset issue any. -/
theorem eachStepIssuesAtMostOneTransaction : Obligations.EachStepIssuesAtMostOneTransaction := by
  intro s t h
  obtain ⟨ms, he | ⟨a, ha⟩ | ⟨-, rfl⟩⟩ := step_cases h
  · exact engineStep_trace (s := { s with moves := ms }) he
  · exact .inl (hostStep_trace (s := { s with moves := ms }) ha)
  · exact .inl rfl

/-! ## Where a step can fault (O52) -/

/-- A SETLEVEL faults only in the place of a DRIVE that finds no segment (R44). -/
theorem execSetLevel_fault {q : Word} {lv : Level} {s : State} {e : Fault} (h : execSetLevel q lv s = .fault e) :
    s.position = .drive ∧ s.segment = none ∧ e = .planIndexOutOfRange := by
  simp only [execSetLevel] at h
  cases hp : s.position <;> cases hg : s.segment <;> simp only [hp, hg] at h <;> cases h
  exact ⟨rfl, rfl, rfl⟩

theorem execSleep_not_fault (q : Word) (d : Dur) (s : State) (e : Fault) : execSleep q d s ≠ .fault e := by
  intro h
  simp only [execSleep] at h
  split at h
  · cases hp : s.position <;> simp only [hp] at h <;> cases h
  · cases h

theorem execAcquire_not_fault (q : Word) (s : State) (e : Fault) : execAcquire q s ≠ .fault e := by
  intro h
  simp only [execAcquire] at h
  split at h <;> cases h

/-- The ENCODING step faults only where it reads a code that was never written (R33, R106). -/
theorem encodingStep_fault {s : State} {e : Fault} (h : encodingStep s = .fault e) :
    memRead s.codes s.k.toNat = none ∧ e = .codeUnwritten := by
  unfold encodingStep at h
  split at h
  · cases h
  · split at h
    · rename_i unwritten
      cases h
      exact ⟨unwritten, rfl⟩
    · simp only [exec, execEncode, execSchedule] at h
      by_cases hb : s.bitlen = 0
      · simp only [if_pos hb, andThen_next, reduceCtorEq] at h
      · by_cases hp : s.pulselen = 0
        · simp only [if_neg hb, if_pos hp, andThen_next, reduceCtorEq] at h
        · simp only [if_neg hb, if_neg hp, andThen_next, reduceCtorEq] at h

/-- The two faults of the engine: an unwritten code at ENCODING, and no segment at DRIVE. -/
theorem engineStep_fault_cases {s : State} {e : Fault} (h : engineStep s = .fault e) :
    (s.position = .encoding ∧ memRead s.codes s.k.toNat = none ∧ e = .codeUnwritten) ∨
    (s.position = .drive ∧ s.segment = none ∧ e = .planIndexOutOfRange) := by
  cases hp : s.position with
  | idle => rw [engineStep_idle hp] at h; cases h
  | acq => exact absurd ((engineStep_acq hp).symm.trans h) (execAcquire_not_fault s.pin s e)
  | initLow =>
    obtain ⟨drive, -⟩ := execSetLevel_fault (engineStep_initLow hp ▸ h)
    exact absurd (hp.symm.trans drive) (by decide)
  | encoding => exact .inl ⟨rfl, encodingStep_fault (engineStep_encoding hp ▸ h)⟩
  | drive =>
    cases hg : s.segment with
    | none => rw [engineStep_drive_none hp hg] at h; cases h; exact .inr ⟨rfl, rfl, rfl⟩
    | some g =>
      obtain ⟨-, missing, -⟩ := execSetLevel_fault (engineStep_drive hp hg ▸ h)
      exact absurd (hg.symm.trans missing) (by simp)
  | wait => exact absurd ((engineStep_wait hp).symm.trans h) (execSleep_not_fault s.pin s.rem s e)
  | finalLow =>
    obtain ⟨drive, -⟩ := execSetLevel_fault (engineStep_finalLow hp ▸ h)
    exact absurd (hp.symm.trans drive) (by decide)
  | rel => rw [engineStep_rel hp] at h; cases h

/-- While a code is being sent the plan has a segment at `s` (R18, R20, R44). -/
theorem Inv.segment_ne_none {s : State} (inv : Inv s) (st : s.st = .transmitting) : s.segment ≠ none := by
  obtain ⟨-, seg⟩ := inv.counters.2 st
  obtain ⟨c, -, plan⟩ := Option.map_eq_some_iff.1 (inv.plan st)
  rw [State.segment, ne_eq, List.getElem?_eq_none_iff, ← plan, planOf_length]
  omega

/-- In the invariant the engine's accesses are in range, and the codes they read are written (R44, R182). -/
theorem engineStep_not_fault {s : State} (inv : Inv s) (written : CodesWritten s) (e : Fault) :
    engineStep s ≠ .fault e := by
  intro h
  rcases engineStep_fault_cases h with ⟨hp, unwritten, -⟩ | ⟨hp, missing, -⟩
  · have inRange := inv.counters.1 (.inl ((position_encoding_iff s).1 hp))
    have isWritten := written s.k.toNat inRange
    simp [unwritten] at isWritten
  · exact inv.segment_ne_none ((position_drive_iff s).1 hp).1 missing

theorem exec_decodeCmd_not_fault (w : Word) (s : State) (e : Fault) : exec (decodeCmd w) s ≠ .fault e := by
  rcases decodeCmd_cases w with hd | hd | hd | hd <;> rw [hd] <;> rintro ⟨⟩

/-- The only indices without a value are those of the codes never written (R30, R33). -/
theorem regRead_eq_none {s : State} {index : Nat} (h : regRead s index = none) :
    ∃ i, index = 16 + i ∧ i < s.maxCodes ∧ memRead s.codes i = none := by
  by_cases code : 16 ≤ index ∧ index < 16 + s.maxCodes
  · obtain ⟨i, rfl⟩ := Nat.exists_eq_add_of_le code.1
    have hi : i < s.maxCodes := by omega
    exact ⟨i, rfl, hi, (regRead_code hi).symm.trans h⟩
  · rw [regRead, if_neg code] at h
    split_ifs at h

/-- An access of the host faults only where it reads a code that was never written (R33). -/
theorem hostStep_fault {a : HostAccess} {s : State} {e : Fault} (h : hostStep a s = .fault e) :
    e = .codeUnwritten ∧ ∃ i, a = .read (16 + i) ∧ i < s.maxCodes ∧ memRead s.codes i = none := by
  cases a with
  | read index =>
    cases hr : regRead s index with
    | some v => rw [hostStep_read hr] at h; cases h
    | none =>
      rw [hostStep_read_none hr] at h
      cases h
      obtain ⟨i, rfl, hi, unwritten⟩ := regRead_eq_none hr
      exact ⟨rfl, i, rfl, hi, unwritten⟩
  | write index v =>
    by_cases command : index = 0
    · subst command
      exact absurd h (exec_decodeCmd_not_fault v s e)
    · rw [hostStep_write command] at h
      cases h

/-- Settles O52: the engine does not fault in the invariant with the codes written, a reset never does, and the host
faults only on a read of an unwritten code. -/
theorem configuredMachineNeverFaults : Obligations.ConfiguredMachineNeverFaults := by
  intro s e inv written h
  cases hm : s.moves with
  | nil => exact absurd (step_of_no_move hm ▸ h) (engineStep_not_fault inv written e)
  | cons m rest =>
    rw [step_of_move hm] at h
    cases m with
    | engine => exact absurd h (engineStep_not_fault (inv.with_moves rest) written e)
    | host a =>
      obtain ⟨rfl, i, rfl, hi, unwritten⟩ := hostStep_fault h
      exact ⟨rfl, i, rest, rfl, hi, unwritten⟩
    | reset =>
      simp only [moveStep, resetStep] at h
      split at h <;> cases h

end Sys2Proof.Machine
end

section
/-! SUPPORT. The bit patterns of the operations: what encodes decodes back, and what a PORT request means it means
alone. -/

namespace Sys2Proof.Machine

/-! ## Encoding, then decoding (O35) -/

/-- Settles O35: each operation has its own bit pattern, or is one of the three that no bit pattern selects (R66). -/
theorem encodedOperationsDecodeToThemselves : Obligations.EncodedOperationsDecodeToThemselves := by
  intro i _
  cases i with
  | transmit => exact .inl ⟨_, rfl, Laws.RoundTrip.transmit _ rfl⟩
  | abort => exact .inl ⟨_, rfl, Laws.RoundTrip.abort _ rfl⟩
  | encode c b => exact .inr ⟨rfl, .inl ⟨c, b, rfl⟩⟩
  | schedule vs p => exact .inr ⟨rfl, .inr (.inl ⟨vs, p, rfl⟩)⟩
  | sym0 p => exact .inl ⟨_, rfl, Laws.RoundTrip.sym0 p _ rfl⟩
  | sym1 p => exact .inl ⟨_, rfl, Laws.RoundTrip.sym1 p _ rfl⟩
  | sync p => exact .inr ⟨rfl, .inr (.inr ⟨p, rfl⟩)⟩
  | setLevel q lv => exact .inl ⟨_, rfl, Laws.RoundTrip.setLevel q lv _ rfl⟩
  | sleep q d => exact .inl ⟨_, rfl, Laws.RoundTrip.sleep q d _ rfl⟩
  | acquire q => exact .inl ⟨_, rfl, Laws.RoundTrip.acquire q _ rfl⟩
  | release q => exact .inl ⟨_, rfl, Laws.RoundTrip.release q _ rfl⟩
  | nop => exact .inl ⟨_, rfl, Laws.RoundTrip.nop _ rfl⟩
  | cmdReserved => exact .inl ⟨_, rfl, Laws.RoundTrip.cmdReserved _ rfl⟩

/-! ## Decoding a PORT request, then encoding (O36) -/

/-- The op and pin fields are the 34 low bits of a PORT request (log 6). -/
theorem extractLsb'_op_pin (r : BitVec 71) : r.extractLsb' 0 34 = portPin r ++ portOp r :=
  (BitVec.extractLsb'_append_extractLsb'_eq_extractLsb' (x := r) (start₂ := 2) (len₂ := 32) (start₁ := 0)
    (len₁ := 2) rfl).symm

/-- A PORT request is its three fields (R67). -/
theorem portRequest_fields (r : BitVec 71) : portRequest (portOp r) (portPin r) (portArg r) = r := by
  have whole : portArg r ++ r.extractLsb' 0 34 = r.extractLsb' 0 71 :=
    BitVec.extractLsb'_append_extractLsb'_eq_extractLsb' (start₂ := 34) (len₂ := 37) (start₁ := 0) (len₁ := 34) rfl
  rw [portRequest, ← extractLsb'_op_pin, whole, BitVec.extractLsb'_eq_self]

/-- A one-bit `arg` is the bit of the level it stands for (R132). -/
theorem setWidth_bit_levelOfBit {a : Dur} (h : a.toNat ≤ 1) : (levelOfBit (a.toNat == 1)).bit.setWidth 37 = a := by
  apply BitVec.eq_of_toNat_eq
  obtain zero | one : a.toNat = 0 ∨ a.toNat = 1 := by omega
  · rw [zero]; rfl
  · rw [one]; rfl

/-- What a PORT request decodes to, by its op field (R67). -/
theorem decodePort_cases {r : BitVec 71} {i : Instr} (h : decodePort r = .ok i) :
    (∃ lv, i = .setLevel (portPin r) lv ∧ portOp r = 0 ∧ lv.bit.setWidth 37 = portArg r) ∨
    (i = .sleep (portPin r) (portArg r) ∧ portOp r = 1) ∨
    (i = .acquire (portPin r) ∧ portOp r = 2) ∨ (i = .release (portPin r) ∧ portOp r = 3) := by
  unfold decodePort at h
  split at h
  next op =>
    split at h
    next oneBit =>
      cases h
      exact .inl ⟨_, rfl, BitVec.eq_of_toNat_eq op, setWidth_bit_levelOfBit oneBit⟩
    next => cases h
  next op =>
    cases h
    exact .inr (.inl ⟨rfl, BitVec.eq_of_toNat_eq op⟩)
  next op =>
    cases h
    exact .inr (.inr (.inl ⟨rfl, BitVec.eq_of_toNat_eq op⟩))
  next not0 not1 not2 =>
    cases h
    have bound := (portOp r).isLt
    change _ ≠ _ at not0 not1 not2
    have op : (portOp r).toNat = 3 := by omega
    exact .inr (.inr (.inr ⟨rfl, BitVec.eq_of_toNat_eq op⟩))

/-- An operation that a PORT request decodes to has that request, with an unused `arg` 0, as its encoding (R67). -/
theorem encode_of_decodePort {r : BitVec 71} {i : Instr} (h : decodePort r = .ok i) :
    encode i = some (.port r) ∨
    (((∃ q, i = .acquire q) ∨ ∃ q, i = .release q) ∧
      encode i = some (.port (portRequest (portOp r) (portPin r) 0))) := by
  rcases decodePort_cases h with ⟨lv, rfl, op, arg⟩ | ⟨rfl, op⟩ | ⟨rfl, op⟩ | ⟨rfl, op⟩
  · left
    rw [encode, arg, ← op, portRequest_fields]
  · left
    rw [encode, ← op, portRequest_fields]
  · exact .inr ⟨.inl ⟨_, rfl⟩, by rw [encode, op]⟩
  · exact .inr ⟨.inr ⟨_, rfl⟩, by rw [encode, op]⟩

/-- The encoding of what a PORT request decodes to has the request's op and pin fields (R67). -/
theorem encode_of_decodePort_op_pin {r : BitVec 71} {i : Instr} (h : decodePort r = .ok i) :
    ∃ arg, encode i = some (.port (portRequest (portOp r) (portPin r) arg)) := by
  rcases encode_of_decodePort h with e | ⟨-, e⟩
  · exact ⟨portArg r, by rw [e, portRequest_fields]⟩
  · exact ⟨0, e⟩

/-- Settles O36: both requests are read back from the one encoding of the operation. -/
theorem portRequestsHaveOneMeaning : Obligations.PortRequestsHaveOneMeaning := by
  intro x y i hx hy
  refine ⟨fun usesArg => ?_, fun _ => ?_⟩
  · have whole {r : BitVec 71} (h : decodePort r = .ok i) : encode i = some (.port r) := by
      rcases encode_of_decodePort h with e | ⟨⟨_, rfl⟩ | ⟨_, rfl⟩, -⟩
      · exact e
      · simp at usesArg
      · simp at usesArg
    exact Encoded.port.inj (Option.some.inj ((whole hx).symm.trans (whole hy)))
  · obtain ⟨a, ex⟩ := encode_of_decodePort_op_pin hx
    obtain ⟨b, ey⟩ := encode_of_decodePort_op_pin hy
    have same : portRequest (portOp x) (portPin x) a = portRequest (portOp y) (portPin y) b :=
      Encoded.port.inj (Option.some.inj (ex.symm.trans ey))
    have op : portOp x = portOp y := by simpa only [portOp_portRequest] using congrArg portOp same
    have pin : portPin x = portPin y := by simpa only [portPin_portRequest] using congrArg portPin same
    rw [extractLsb'_op_pin, extractLsb'_op_pin, op, pin]

end Sys2Proof.Machine
end

section
/-! SUPPORT. The register writes that `transmit(...)` expands to (R75), run one by one. -/

namespace Sys2Proof.Machine

/-! ## Consecutive code words -/

/-- The code list memory after the codes are written one by one, the first at index `j` (R75). -/
def writeCodes (m : Memory) (j : Nat) : List Word → Memory
  | [] => m
  | c :: codes => writeCodes (memWrite m j c) (j + 1) codes

theorem memRead_writeCodes_other {m : Memory} {j i : Nat} {codes : List Word} (h : i < j ∨ j + codes.length ≤ i) :
    memRead (writeCodes m j codes) i = memRead m i := by
  induction codes generalizing m j with
  | nil => rfl
  | cons c codes ih =>
    rw [List.length_cons] at h
    rw [writeCodes, ih (by omega), memRead_memWrite_other _ _ (by omega)]

theorem memRead_writeCodes_code {m : Memory} {j i : Nat} {codes : List Word} (h : i < codes.length) :
    memRead (writeCodes m j codes) (j + i) = some codes[i] := by
  induction codes generalizing m j i with
  | nil => cases h
  | cons c codes ih =>
    cases i with
    | zero => rw [writeCodes, memRead_writeCodes_other (by omega)]; exact memRead_memWrite_same m j c
    | succ i =>
      rw [writeCodes, show j + (i + 1) = j + 1 + i by omega, ih (Nat.lt_of_succ_lt_succ h), List.getElem_cons_succ]

/-! ## The host's writes as steps -/

/-- A run goes on from what the host's write that is its first move leaves (R13, R119). -/
theorem run_write {n i : Nat} {s t : State} {v : Word} {rest : List Slot} (hm : s.moves = .host (.write i v) :: rest)
    (hi : i ≠ 0) (written : regWrite { s with moves := rest } i v = t) : runFor (n + 1) s = runFor n t :=
  run_succ_of_next ((step_of_move hm).trans (written ▸ hostStep_write hi _ v))

theorem not_busy_of_idle {s : State} (idle : s.st = .idle) : ¬ s.busy = true := by simp [State.busy, idle]

theorem regWrite_ncodes {s : State} {v : Word} (idle : s.st = .idle) (fits : v.toNat ≤ s.maxCodes) :
    regWrite s 3 v = { s with ncodes := v } :=
  (if_neg (not_busy_of_idle idle)).trans (if_pos fits)

theorem regWrite_iterations {s : State} {v : Word} (idle : s.st = .idle) :
    regWrite s 4 v = { s with iterations := v } :=
  if_neg (not_busy_of_idle idle)

theorem regWrite_pin {s : State} {v : Word} (idle : s.st = .idle) : regWrite s 5 v = { s with pin := v } :=
  if_neg (not_busy_of_idle idle)

theorem regWrite_pulselen {s : State} {v : Word} (idle : s.st = .idle) :
    regWrite s 6 v = { s with pulselen := v } :=
  if_neg (not_busy_of_idle idle)

theorem regWrite_bitlen {s : State} {v : Word} (idle : s.st = .idle) : regWrite s 7 v = { s with bitlen := v } :=
  if_neg (not_busy_of_idle idle)

theorem regWrite_code {s : State} {j : Nat} {v : Word} (idle : s.st = .idle) (hj : j < s.maxCodes) :
    regWrite s (16 + j) v = { s with codes := memWrite s.codes j v } := by
  have no_register : ∀ n < 16, 16 + j ≠ n := by omega
  simpa [hj, no_register] using
    regWrite_cases (v := v) idle (.inr (.inr ⟨Nat.le_add_right 16 j, Nat.add_lt_add_left hj 16⟩))

/-- The five operand registers are written in IDLE in five steps (R75). -/
theorem run_operand_writes {s : State} {n iterations pin pulseLength bitLength : Word} {rest : List Slot}
    (idle : s.st = .idle) (fits : n.toNat ≤ s.maxCodes)
    (hm : s.moves = .host (.write 3 n) :: .host (.write 4 iterations) :: .host (.write 5 pin) ::
      .host (.write 6 pulseLength) :: .host (.write 7 bitLength) :: rest) :
    runFor 5 s = .next { s with
      ncodes := n, iterations := iterations, pin := pin, pulselen := pulseLength, bitlen := bitLength
      moves := rest } := by
  refine Eq.trans (run_write hm (by decide) (regWrite_ncodes idle fits)) ?_
  refine Eq.trans (run_write rfl (by decide) (regWrite_iterations idle)) ?_
  refine Eq.trans (run_write rfl (by decide) (regWrite_pin idle)) ?_
  refine Eq.trans (run_write rfl (by decide) (regWrite_pulselen idle)) ?_
  exact run_write rfl (by decide) (regWrite_bitlen idle)

/-- The code words are written in IDLE in one step each, the first at code index `j` (R75). -/
theorem run_code_writes {codes : List Word} {s : State} {j : Nat} {rest : List Slot} (idle : s.st = .idle)
    (fits : j + codes.length ≤ s.maxCodes)
    (hm : s.moves = (codes.mapIdx fun i c => HostAccess.write (16 + (j + i)) c).map .host ++ rest) :
    runFor codes.length s = .next { s with codes := writeCodes s.codes j codes, moves := rest } := by
  induction codes generalizing s j with
  | nil =>
    obtain rfl : s.moves = rest := hm
    rfl
  | cons c codes ih =>
    rw [List.length_cons] at fits
    rw [List.mapIdx_cons, List.map_cons, List.cons_append] at hm
    have room : j < s.maxCodes := by omega
    have fits_tail : j + 1 + codes.length ≤ s.maxCodes := by omega
    rw [List.length_cons, run_write hm (by omega) (regWrite_code idle room)]
    exact ih idle fits_tail (by simp only [Nat.add_assoc, Nat.add_comm 1])

/-! ## The expansion of transmit(...) -/

/-- The moves of `transmit(...)`: the five operand registers, the code words, START (R75). -/
theorem transmitWrites_moves (codes : List Word) (iterations pin pulseLength bitLength : Word) (rest : List Slot) :
    (transmitWrites codes iterations pin pulseLength bitLength).map .host ++ rest =
      .host (.write 3 (BitVec.ofNat 32 codes.length)) :: .host (.write 4 iterations) :: .host (.write 5 pin) ::
      .host (.write 6 pulseLength) :: .host (.write 7 bitLength) ::
      ((codes.mapIdx fun i c => HostAccess.write (16 + (0 + i)) c).map .host ++ .host (.write 0 1) :: rest) := by
  simp only [transmitWrites, Nat.zero_add, List.map_append, List.append_assoc]
  rfl

/-- Settles O30: the operand writes, then the code writes, then START on the configuration they leave. -/
theorem transmitWritesLoadTheConfigurationAndStart : Obligations.TransmitWritesLoadTheConfigurationAndStart := by
  intro s codes iterations pin pulseLength bitLength rest idle fits small hm
  rw [transmitWrites_moves] at hm
  have count : (BitVec.ofNat 32 codes.length).toNat ≤ s.maxCodes := by
    rwa [BitVec.toNat_ofNat, Nat.mod_eq_of_lt small]
  have operands := run_operand_writes idle count hm
  refine ⟨writeCodes s.codes 0 codes, fun i h => ?_, fun i h => memRead_writeCodes_other (.inr (by omega)), ?_⟩
  · simpa only [Nat.zero_add] using memRead_writeCodes_code (m := s.codes) (j := 0) h
  · rw [show codes.length + 6 = 5 + (codes.length + 1) by omega, run_add operands]
    refine Eq.trans (run_add (run_code_writes (j := 0) idle ?_ rfl)) ?_
    · rwa [Nat.zero_add]
    rw [run_one]
    exact commandWriteRunsTheDecodedOperation _ 1 .transmit rest rfl rfl

end Sys2Proof.Machine
end

section
/-! SUPPORT. The Bit Encoder: the sequence ENCODE returns, bit by bit and as the number it spells, and what ENCODE
answers. -/

namespace Sys2Proof.Machine

/-! ## The sequence of a code word -/

/-- Symbol position `i` is the bit of weight `2 ^ (b - 1 - i)` (R69, R81). -/
theorem encodeCode_getElem? {c b i : Nat} (h : i < b) : (encodeCode c b)[i]? = some (c.testBit (b - 1 - i)) := by
  rw [encodeCode, List.getElem?_map, List.getElem?_range h]
  rfl

/-- One bit more puts bit 0 last, after the symbols of the bits above it. -/
theorem encodeCode_succ (c b : Nat) : encodeCode c (b + 1) = encodeCode (c / 2) b ++ [c.testBit 0] := by
  have above : ∀ i ∈ List.range b, bitAt c (b + 1 - 1 - i) = bitAt (c / 2) (b - 1 - i) := fun i hi => by
    have hi : i < b := List.mem_range.1 hi
    rw [show b + 1 - 1 - i = b - 1 - i + 1 by omega]
    exact Nat.testBit_add_one c _
  have last : bitAt c (b + 1 - 1 - b) = c.testBit 0 := by rw [Nat.add_sub_cancel, Nat.sub_self, bitAt]
  rw [encodeCode, List.range_succ, List.map_append, List.map_congr_left above, List.map_singleton, last, encodeCode]

/-- Read most significant first, the symbols spell the low `b` bits (R81). -/
theorem foldl_encodeCode (c b : Nat) :
    (encodeCode c b).foldl (fun n (v : Symbol) => 2 * n + v.toNat) 0 = c % 2 ^ b := by
  induction b generalizing c with
  | zero => exact (Nat.mod_one c).symm
  | succ b ih =>
    have bit0 : (c.testBit 0).toNat = c % 2 := by rw [Nat.toNat_testBit, Nat.pow_zero, Nat.div_one]
    rw [encodeCode_succ, List.foldl_append, ih, List.foldl_cons, List.foldl_nil, bit0, Nat.pow_succ', Nat.mod_mul,
      Nat.add_comm]

/-- `encode(c, b) = encode(c mod 2^b, b)` (R83): every bit read is below `b`. -/
theorem encodeCode_mod (c b : Nat) : encodeCode (c % 2 ^ b) b = encodeCode c b := by
  refine List.map_congr_left fun i hi => ?_
  have below : b - 1 - i < b := by have := List.mem_range.1 hi; omega
  rw [bitAt, Nat.testBit_mod_two_pow, decide_eq_true below, Bool.true_and, bitAt]

/-! ## What ENCODE answers -/

theorem exec_encode_of_ne_zero {b : Word} (hb : b ≠ 0) (c : Word) (s : State) :
    exec (.encode c b) s = .next { s with symOut := encodeCode c.toNat b.toNat } := if_neg hb

theorem exec_encode_zero (c : Word) (s : State) :
    exec (.encode c 0) s = .next (s.raise ⟨.invalidParameter, .encode, 0b0010, none⟩) := by
  rw [exec, execEncode, if_pos rfl]

/-- Settles O6: position by position, and by induction on the bit length for the number the symbols spell. -/
theorem encodeYieldsTheBitsMsbFirst : Obligations.EncodeYieldsTheBitsMsbFirst := by
  intro c b s hb
  refine ⟨_, exec_encode_of_ne_zero hb c s, encodeCode_length _ _, fun i hi => ?_, foldl_encodeCode _ _⟩
  rw [encodeCode_getElem? hi, Nat.testBit_eq_decide_div_mod_eq]

/-- Settles O7: the error is raised on the machine's own record and position. -/
theorem encodeRejectsBitLengthZero : Obligations.EncodeRejectsBitLengthZero := by
  intro c s
  rw [exec_encode_zero]
  refine ⟨fun clean free => ?_, fun clean held => ?_, fun failed free => ?_, fun failed held => ?_⟩
  · rw [raise_of_not_owned free, State.writeRecord, if_pos clean]
    rfl
  · rw [raise_of_owned held, State.writeRecord, if_pos clean]
    rfl
  · rw [raise_of_not_owned free, writeRecord_of_error failed]
    rfl
  · rw [raise_of_owned held, writeRecord_of_error failed]
    rfl

/-- Settles O8: both codes are encoded as the one number below `2 ^ b` that they agree on. -/
theorem encodeIgnoresBitsAboveTheBitLength : Obligations.EncodeIgnoresBitsAboveTheBitLength := by
  intro c c' b s hb agree
  have same : encodeCode c'.toNat b.toNat = encodeCode c.toNat b.toNat := by
    rw [← encodeCode_mod c'.toNat, ← agree, encodeCode_mod]
  exact ⟨_, exec_encode_of_ne_zero hb c s, same ▸ exec_encode_of_ne_zero hb c' s⟩

end Sys2Proof.Machine
end

section
/-! SUPPORT. The Pulse Scheduler: what SCHEDULE, SYM0, SYM1 and SYNC answer, and the plan pair by pair. -/

namespace Sys2Proof.Machine

/-! ## What the Pulse Scheduler's operations answer -/

theorem exec_schedule_of_ne_zero {p : Word} (hp : p ≠ 0) (vs : List Symbol) (s : State) :
    exec (.schedule vs p) s = .next { s with segOut := schedulePlan vs p } := if_neg hp

theorem exec_schedule_zero (vs : List Symbol) (s : State) :
    exec (.schedule vs 0) s = .next (s.raise ⟨.invalidParameter, .schedule, 0b0001, none⟩) := by
  rw [exec, execSchedule, if_pos rfl]

theorem exec_sym0 (p : Word) (s : State) : exec (.sym0 p) s = .next { s with segOut := sym0Segments p } := rfl

theorem exec_sym1 (p : Word) (s : State) : exec (.sym1 p) s = .next { s with segOut := sym1Segments p } := rfl

theorem exec_sync (p : Word) (s : State) : exec (.sync p) s = .next { s with segOut := syncSegments p } := rfl

/-- The operation a symbol selects returns that symbol's part of the plan (R63, R91). -/
theorem exec_decodeSymbol (v : Symbol) (p : Word) (s : State) :
    exec (decodeSymbol v p) s = .next { s with segOut := symbolSegments p v } := by
  cases v
  · exact exec_sym0 p s
  · exact exec_sym1 p s

theorem decode_symbol (v : Symbol) (p : Word) : decode (.symbol (BitVec.ofBool v) p) = .ok (decodeSymbol v p) := by
  cases v <;> rfl

/-! ## A pair of segments -/

theorem le_duration_toNat {u : Nat} (one : 1 ≤ u) (fits : u ≤ 31) (p : Word) : p.toNat ≤ (duration u p).toNat := by
  rw [duration_toNat fits]
  exact Nat.le_mul_of_pos_left _ one

theorem segmentPair_zero (high low : Nat) : segmentPair high low 0 = [⟨.high, 0⟩, ⟨.low, 0⟩] := by
  simp [segmentPair, duration]

theorem planTime_append (plan plan' : List Segment) : planTime (plan ++ plan') = planTime plan + planTime plan' := by
  rw [planTime, List.map_append, List.sum_append, planTime, planTime]

theorem planTime_segmentPair {high low : Nat} (hh : high ≤ 31) (hl : low ≤ 31) (p : Word) :
    planTime (segmentPair high low p) = (high + low) * p.toNat := by
  have sum : planTime (segmentPair high low p) = (duration high p).toNat + (duration low p).toNat := rfl
  rw [sum, duration_toNat hh, duration_toNat hl, Nat.add_mul]

theorem planTime_symbolSegments (p : Word) (v : Symbol) : planTime (symbolSegments p v) = 4 * p.toNat := by
  cases v
  · exact planTime_segmentPair (by decide) (by decide) p
  · exact planTime_segmentPair (by decide) (by decide) p

theorem planTime_syncSegments (p : Word) : planTime (syncSegments p) = 32 * p.toNat :=
  planTime_segmentPair (by decide) (by decide) p

/-! ## The plan, by recursion on the symbols -/

/-- The plan of the empty sequence is the footer alone (R99). -/
theorem schedulePlan_nil (p : Word) : schedulePlan [] p = syncSegments p := rfl

theorem schedulePlan_cons (v : Symbol) (vs : List Symbol) (p : Word) :
    schedulePlan (v :: vs) p = symbolSegments p v ++ schedulePlan vs p := by
  rw [schedulePlan, List.flatMap_cons, List.append_assoc, schedulePlan]

theorem planTime_schedulePlan (vs : List Symbol) (p : Word) :
    planTime (schedulePlan vs p) = (4 * vs.length + 32) * p.toNat := by
  induction vs with
  | nil => exact planTime_syncSegments p
  | cons v vs ih =>
    rw [schedulePlan_cons, planTime_append, planTime_symbolSegments, ih, List.length_cons]
    ring

/-! ## The plan, pair by pair (R95) -/

/-- The units HIGH and the units LOW of a symbol (R92, R93). -/
def symbolUnits (v : Symbol) : Nat × Nat := if v then (Config.u1h, Config.u1l) else (Config.u0h, Config.u0l)

/-- The units HIGH and the units LOW of pair `i` of a plan: those of symbol `i`, and after the last symbol those of the
footer (R91 to R94). -/
def pairUnits (vs : List Symbol) (i : Nat) : Nat × Nat := (vs[i]?.map symbolUnits).getD (Config.ush, Config.usl)

theorem symbolUnits_decide (bit : Prop) [Decidable bit] :
    symbolUnits (decide bit) = (if bit then 3 else 1, if bit then 1 else 3) := by
  by_cases h : bit
  · rw [decide_eq_true h, if_pos h, if_pos h]
    rfl
  · rw [decide_eq_false h, if_neg h, if_neg h]
    rfl

theorem symbolSegments_eq_segmentPair (p : Word) (v : Symbol) :
    symbolSegments p v = segmentPair (symbolUnits v).1 (symbolUnits v).2 p := by
  cases v <;> rfl

theorem pairUnits_of_symbol {vs : List Symbol} {i : Nat} {v : Symbol} (h : vs[i]? = some v) :
    pairUnits vs i = symbolUnits v := by
  rw [pairUnits, h, Option.map_some, Option.getD_some]

theorem pairUnits_length (vs : List Symbol) : pairUnits vs vs.length = (1, 31) := by
  rw [pairUnits, List.getElem?_eq_none (Nat.le_refl _)]
  rfl

/-- Every unit count of R34 is at least 1, and its product with a pulse length fits `DURW` bits (R72). -/
theorem pairUnits_bounds (vs : List Symbol) (i : Nat) :
    (1 ≤ (pairUnits vs i).1 ∧ (pairUnits vs i).1 ≤ 31) ∧ 1 ≤ (pairUnits vs i).2 ∧ (pairUnits vs i).2 ≤ 31 := by
  have symbol : ∀ v,
      (1 ≤ (symbolUnits v).1 ∧ (symbolUnits v).1 ≤ 31) ∧ 1 ≤ (symbolUnits v).2 ∧ (symbolUnits v).2 ≤ 31 := by decide
  rw [pairUnits]
  cases vs[i]? with
  | none => decide
  | some v => exact symbol v

/-- A symbol's pair lasts 4 units, the footer 32 (R97). -/
theorem pairUnits_sum {vs : List Symbol} {i : Nat} (h : i ≤ vs.length) :
    (pairUnits vs i).1 + (pairUnits vs i).2 = if i = vs.length then 32 else 4 := by
  have symbol : ∀ v, (symbolUnits v).1 + (symbolUnits v).2 = 4 := by decide
  split
  case isTrue last => simp only [last, pairUnits_length]
  case isFalse notLast =>
    rw [pairUnits_of_symbol (List.getElem?_eq_getElem (Nat.lt_of_le_of_ne h notLast)), symbol]

/-- Pair `i` stands at positions `2 * i` and `2 * i + 1` of the plan, by recursion on the symbols before it. -/
theorem schedulePlan_getElem?_pair {vs : List Symbol} {i : Nat} (h : i ≤ vs.length) (p : Word) :
    (schedulePlan vs p)[2 * i]? = some ⟨.high, duration (pairUnits vs i).1 p⟩ ∧
      (schedulePlan vs p)[2 * i + 1]? = some ⟨.low, duration (pairUnits vs i).2 p⟩ := by
  induction vs generalizing i with
  | nil =>
    obtain rfl := Nat.le_zero.1 h
    exact ⟨rfl, rfl⟩
  | cons v vs ih =>
    rw [schedulePlan_cons, symbolSegments_eq_segmentPair]
    cases i with
    | zero => exact ⟨rfl, rfl⟩
    | succ i => exact ih (Nat.le_of_succ_le_succ h)

/-- Every segment of a plan is one of a pair: it lasts at least the pulse length (R97). -/
theorem pulseLength_le_of_mem_schedulePlan {vs : List Symbol} {p : Word} {g : Segment} (h : g ∈ schedulePlan vs p) :
    p.toNat ≤ g.duration.toNat := by
  obtain ⟨j, hj⟩ := List.mem_iff_getElem?.1 h
  have inPlan : j < 2 * vs.length + 2 := by
    rw [← schedulePlan_length vs p]
    exact (List.getElem?_eq_some_iff.1 hj).1
  obtain ⟨high, low⟩ := schedulePlan_getElem?_pair (show j / 2 ≤ vs.length by omega) p
  obtain ⟨⟨high1, high31⟩, low1, low31⟩ := pairUnits_bounds vs (j / 2)
  rcases Nat.mod_two_eq_zero_or_one j with even | odd
  · rw [show 2 * (j / 2) = j by omega, hj] at high
    cases high
    exact le_duration_toNat high1 high31 p
  · rw [show 2 * (j / 2) + 1 = j by omega, hj] at low
    cases low
    exact le_duration_toNat low1 low31 p

/-! ## The statements -/

/-- Settles O9: the durations are the units of R34, which fit; every plan ends with SYNC's two segments. -/
theorem symbolOperationsEmitTheirPatterns : Obligations.SymbolOperationsEmitTheirPatterns := by
  intro p s hp
  have one : (duration 1 p).toNat = p.toNat := (duration_toNat (by decide) p).trans (Nat.one_mul _)
  have three : (duration 3 p).toNat = 3 * p.toNat := duration_toNat (by decide) p
  have footer : (duration 31 p).toNat = 31 * p.toNat := duration_toNat (by decide) p
  have symbolsLength (vs : List Symbol) : (vs.flatMap (symbolSegments p)).length = 2 * vs.length :=
    Nat.add_right_cancel (List.length_append.symm.trans (schedulePlan_length vs p))
  exact ⟨decode_symbol false p, decode_symbol true p, rfl,
    ⟨duration 1 p, duration 3 p, exec_sym0 p s, one, three, by omega⟩,
    ⟨duration 3 p, duration 1 p, exec_sym1 p s, three, one, by omega⟩,
    ⟨duration 1 p, duration 31 p, exec_sync p s, one, footer, by omega, fun vs =>
      ⟨_, symbolsLength vs, exec_schedule_of_ne_zero hp vs s⟩⟩⟩

/-- Settles O10: the plan is made of what the selected operations return. -/
theorem scheduleIsTheSymbolsInOrderThenSync : Obligations.ScheduleIsTheSymbolsInOrderThenSync := by
  intro vs p s hp
  refine ⟨vs.map (symbolSegments p), syncSegments p, ?_, exec_sync p s, List.length_map _, fun i v hv => ?_⟩
  · rw [exec_schedule_of_ne_zero hp, schedulePlan, List.flatMap_def]
  · exact ⟨symbolSegments p v, by rw [List.getElem?_map, hv, Option.map_some], decode_symbol v p,
      exec_decodeSymbol v p s⟩

/-- Settles O12: pair `i` has the units of symbol `i`, which is bit `b - 1 - i`; pair `b` is the footer. -/
theorem planEntriesHaveTheClosedForm : Obligations.PlanEntriesHaveTheClosedForm := by
  intro c b p s hb hp
  have length := encodeCode_length c.toNat b.toNat
  refine ⟨_, _, exec_encode_of_ne_zero hb c s, exec_schedule_of_ne_zero hp _ s, fun i hi => ?_, ?_, ?_⟩
  · obtain ⟨high, low⟩ := schedulePlan_getElem?_pair (length ▸ hi.le) p
    obtain ⟨⟨-, high31⟩, -, low31⟩ := pairUnits_bounds (encodeCode c.toNat b.toNat) i
    refine ⟨_, _, high, low, ?_⟩
    rw [duration_toNat high31, duration_toNat low31, pairUnits_of_symbol (encodeCode_getElem? hi),
      Nat.testBit_eq_decide_div_mod_eq, symbolUnits_decide]
    exact ⟨rfl, rfl⟩
  · obtain ⟨high, low⟩ := schedulePlan_getElem?_pair length.ge p
    have footer := pairUnits_length (encodeCode c.toNat b.toNat)
    rw [length] at footer
    rw [footer] at high low
    exact ⟨_, _, high, low, (duration_toNat (by decide) p).trans (Nat.one_mul _), duration_toNat (by decide) p⟩
  · exact List.getElem?_eq_none (planOf_length c b p).le

/-- Settles O13: the pairs, the sums and the durations are those of `pairUnits`, the total is by recursion on the
symbols. -/
theorem plansHaveTheTestableProperties : Obligations.PlansHaveTheTestableProperties := by
  intro vs p s hp
  refine ⟨_, exec_schedule_of_ne_zero hp vs s, schedulePlan_length vs p, fun i hi => ?_, planTime_schedulePlan vs p,
    fun g hg => ?_⟩
  · obtain ⟨high, low⟩ := schedulePlan_getElem?_pair hi p
    obtain ⟨⟨-, high31⟩, -, low31⟩ := pairUnits_bounds vs i
    refine ⟨_, _, high, low, rfl, rfl, ?_⟩
    rw [duration_toNat high31, duration_toNat low31, ← Nat.add_mul, pairUnits_sum hi]
  · have longEnough := pulseLength_le_of_mem_schedulePlan hg
    exact ⟨longEnough, Nat.le_trans (BitVec.toNat_pos_of_ne_zero hp) longEnough⟩

/-- Settles O11: the error is raised on the machine's own record and position. -/
theorem scheduleRejectsPulseLengthZero : Obligations.ScheduleRejectsPulseLengthZero := by
  intro vs s
  rw [exec_schedule_zero]
  refine ⟨fun clean free => ?_, fun clean held => ?_, fun failed free => ?_, fun failed held => ?_⟩
  · rw [raise_of_not_owned free, State.writeRecord, if_pos clean]
    rfl
  · rw [raise_of_owned held, State.writeRecord, if_pos clean]
    rfl
  · rw [raise_of_not_owned free, writeRecord_of_error failed]
    rfl
  · rw [raise_of_owned held, writeRecord_of_error failed]
    rfl

/-- Settles O57: a product with the pulse length 0 is 0, whatever the units. -/
theorem symbolOperationsOfPulseLengthZeroRunByTheirFormulas :
    Obligations.SymbolOperationsOfPulseLengthZeroRunByTheirFormulas := by
  intro s
  refine ⟨decode_symbol false 0, decode_symbol true 0, rfl, ?_, ?_, ?_⟩
  · rw [exec_sym0, sym0Segments, segmentPair_zero]
  · rw [exec_sym1, sym1Segments, segmentPair_zero]
  · rw [exec_sync, syncSegments, segmentPair_zero]

end Sys2Proof.Machine
end

section
/-! SUPPORT. The Transmitter: the host's commands START and ABORT, and the step of the engine at each position with every
answer of the environment. -/

namespace Sys2Proof.Machine

/-! ## The record a first error leaves (R154) -/

theorem raise_first_of_owned {s : State} (held : s.owned = true) (clean : s.result = .none) (e : ErrorInfo) :
    s.raise e = { s with
      st := .releasing, phase := false, result := e.cause, stage := e.stage, badparam := e.badparam
      cidxv := e.codeIndex.isSome, erridx := e.codeIndex.getD 0 } := by
  rw [raise_of_owned held, State.writeRecord, if_pos clean]
  rfl

theorem raise_first_of_not_owned {s : State} (free : s.owned = false) (clean : s.result = .none) (e : ErrorInfo) :
    s.raise e = { s with
      st := .idle, phase := false, done := true, abortp := false, result := e.cause, stage := e.stage
      badparam := e.badparam, cidxv := e.codeIndex.isSome, erridx := e.codeIndex.getD 0 } := by
  rw [raise_of_not_owned free, State.writeRecord, if_pos clean]
  rfl

/-! ## START and ABORT (R102, R103, R114) -/

/-- The mask as the sum of the bits of the failing conditions (R103, R153). -/
theorem paramMask_eq_sum (s : State) :
    paramMask s = BitVec.ofNat 4 ((if s.pulselen = 0 then 1 else 0) + (if s.bitlen = 0 then 2 else 0) +
      (if s.iterations = 0 then 4 else 0) + (if s.ncodes = 0 then 8 else 0)) := by
  have four : ∀ n i b p : Bool, BitVec.ofBool n ++ BitVec.ofBool i ++ BitVec.ofBool b ++ BitVec.ofBool p =
      BitVec.ofNat 4 ((if p then 1 else 0) + (if b then 2 else 0) + (if i then 4 else 0) + (if n then 8 else 0)) := by
    decide
  have bits := four (s.ncodes == 0) (s.iterations == 0) (s.bitlen == 0) (s.pulselen == 0)
  simp only [beq_iff_eq] at bits
  exact bits

/-- The stage of the lowest failing condition (R153). -/
theorem stageOfMask_paramMask (s : State) :
    stageOfMask (paramMask s) = if s.pulselen = 0 then .schedule else if s.bitlen = 0 then .encode else .transmit := by
  have four : ∀ n i b p : Bool, stageOfMask (BitVec.ofBool n ++ BitVec.ofBool i ++ BitVec.ofBool b ++ BitVec.ofBool p) =
      if p then .schedule else if b then .encode else .transmit := by decide
  have stage := four (s.ncodes == 0) (s.iterations == 0) (s.bitlen == 0) (s.pulselen == 0)
  simp only [beq_iff_eq] at stage
  exact stage

/-- Settles O1: with the mask 0 START clears the last run and goes to ACQ, else it raises on the cleared record. -/
theorem startValidatesAllFourOperands : Obligations.StartValidatesAllFourOperands := by
  refine fun s idle => ⟨fun hn hi hb hp => ?valid, fun free bad => ?invalid⟩
  case valid =>
    exact ⟨s.trace.length, execTransmit_of_valid idle ((paramMask_eq_zero_iff s).2 ⟨hn, hi, hb, hp⟩)⟩
  case invalid =>
    have mask : paramMask s ≠ 0 := fun h => by
      obtain ⟨hn, hi, hb, hp⟩ := (paramMask_eq_zero_iff s).1 h
      rcases bad with h | h | h | h <;> contradiction
    refine ⟨s.trace.length, (execTransmit_of_invalid idle mask).trans ?_⟩
    rw [raise_first_of_not_owned (by simpa using free) rfl, stageOfMask_paramMask, paramMask_eq_sum]
    rfl

/-- Settles O2: START looks at STATE first. -/
theorem startWhileBusyChangesNothing : Obligations.StartWhileBusyChangesNothing :=
  fun _ busy => congrArg _ (if_neg busy)

/-- Settles O3, by whether a run is in progress. -/
theorem abortOnlyLatchesTheRequest : Obligations.AbortOnlyLatchesTheRequest :=
  fun _ => ⟨fun busy => congrArg _ (if_neg busy), fun idle => congrArg _ (if_pos idle)⟩

/-! ## What a transaction leaves, by its answer (R132, R134, R136) -/

theorem portSetLevel_of_ok {s : State} (ok : s.okAnswer = true) (q : Word) (lv : Level) :
    s.portSetLevel q lv = { s.okAnswerTaken with trace := s.trace ++ [.setLevel q lv true], level := lv } := by
  rw [portSetLevel_eq, if_pos ok, ok, State.log, okAnswerTaken_trace]

theorem portSetLevel_of_fail {s : State} (fail : s.okAnswer = false) (q : Word) (lv : Level) :
    s.portSetLevel q lv = { s.okAnswerTaken with trace := s.trace ++ [.setLevel q lv false] } := by
  rw [portSetLevel_eq, if_neg (Bool.eq_false_iff.1 fail), fail, State.log, okAnswerTaken_trace]

theorem portAcquire_of_ok {s : State} (ok : s.okAnswer = true) (q : Word) :
    s.portAcquire q = { s.okAnswerTaken with trace := s.trace ++ [.acquire q true], owned := true } := by
  rw [State.portAcquire, ok, State.log, okAnswerTaken_trace, Bool.true_or]

theorem portAcquire_of_fail {s : State} (fail : s.okAnswer = false) (q : Word) :
    s.portAcquire q = { s.okAnswerTaken with trace := s.trace ++ [.acquire q false] } := by
  rw [State.portAcquire, fail, State.log, okAnswerTaken_trace, Bool.false_or, ← okAnswerTaken_owned s]

theorem portSleep_eq (s : State) (q : Word) (d : Dur) :
    s.portSleep q d = { s.sleepAnswerTaken with trace := s.trace ++ [.sleep q d (s.sleepAnswer d)] } := by
  rw [State.portSleep, State.log, sleepAnswerTaken_trace]

/-! ## What each position does with the answer (R104, R105, R108 to R110) -/

theorem exec_acquire_of_ok {s : State} (hp : s.position = .acq) (ok : s.okAnswer = true) (q : Word) :
    exec (.acquire q) s = .next { s.portAcquire q with phase := true } := by
  rw [exec, execAcquire, if_pos ok, if_pos hp]

theorem exec_acquire_of_fail {s : State} (fail : s.okAnswer = false) (q : Word) :
    exec (.acquire q) s = .next ((s.portAcquire q).raise acquireError) := by
  rw [exec, execAcquire, if_neg (Bool.eq_false_iff.1 fail)]

theorem exec_setLevel_at_initLow {s : State} (hp : s.position = .initLow) (q : Word) (lv : Level) :
    exec (.setLevel q lv) s = .next (if s.okAnswer then { s.portSetLevel q lv with k := 0 }.goTo .encoding false
      else (s.portSetLevel q lv).raise acquireError) := by
  simp only [exec, execSetLevel, hp]

theorem exec_setLevel_at_drive {s : State} {g : Segment} (hp : s.position = .drive) (hg : s.segment = some g) (q : Word)
    (lv : Level) :
    exec (.setLevel q lv) s = .next (if s.okAnswer then { s.portSetLevel q lv with rem := g.duration, phase := true }
      else (s.portSetLevel q lv).raise (transmitError (some s.k))) := by
  simp only [exec, execSetLevel, hp, hg]

theorem exec_setLevel_at_finalLow {s : State} (hp : s.position = .finalLow) (q : Word) (lv : Level) :
    exec (.setLevel q lv) s = .next { (if s.okAnswer then s.portSetLevel q lv
      else (s.portSetLevel q lv).writeRecord (transmitError none)) with phase := true } := by
  simp only [exec, execSetLevel, hp]

theorem exec_sleep_at_wait {s : State} {d : Dur} (hp : s.position = .wait) (hle : s.sleepAnswer d ≤ d) (q : Word) :
    exec (.sleep q d) s = .next (if s.sleepAnswer d = 0 then afterWait { s.portSleep q d with rem := 0 }
      else { s.portSleep q d with rem := s.sleepAnswer d }) := by
  simp only [exec, execSleep, if_pos hle, hp]

/-- The comparisons of R109 as the rule writes them, over the integers (R72). -/
theorem afterWait_over_integers (s : State) :
    afterWait s =
      if (s.seg.toNat : Int) < 2 * s.bitlen.toNat + 1 then { s with seg := s.seg + 1, phase := false }
      else if (s.r.toNat : Int) < (s.iterations.toNat : Int) - 1 then { s with seg := 0, r := s.r + 1, phase := false }
      else if (s.k.toNat : Int) < (s.ncodes.toNat : Int) - 1 then
        { s with seg := 0, r := 0, k := s.k + 1, st := .encoding, phase := false }
      else { s with seg := 0, r := 0, st := .releasing, phase := false } :=
  if_congr (by omega) rfl (if_congr (by omega) rfl (if_congr (by omega) rfl rfl))

/-! ## The steps, position by position -/

/-- Settles O16: `ok` takes the handle, and `fail` raises while the handle is not held. -/
theorem acquireStepTakesTheHandleOrEndsTheRun : Obligations.AcquireStepTakesTheHandleOrEndsTheRun := by
  intro s hm hst hph free clean
  have hp := (position_acq_iff s).2 ⟨hst, hph⟩
  refine ⟨(step_of_no_move hm).trans (engineStep_acq hp), fun ok => ?_, fun fail => ?_⟩
  · rw [exec_acquire_of_ok hp ok, portAcquire_of_ok ok]
  · rw [exec_acquire_of_fail fail, raise_first_of_not_owned (by simp [fail, free]) (by simpa using clean),
      portAcquire_of_fail fail]
    rfl

/-- Settles O17: `ok` goes on to the first code, and `fail` raises while the handle is held. -/
theorem initLowStepLeadsToEncodingOrCleanup : Obligations.InitLowStepLeadsToEncodingOrCleanup := by
  intro s hm hst hph held clean
  have hp := (position_initLow_iff s).2 ⟨hst, hph⟩
  refine ⟨(step_of_no_move hm).trans (engineStep_initLow hp), fun ok => ?_, fun fail => ?_⟩
  · rw [exec_setLevel_at_initLow hp, if_pos ok, portSetLevel_of_ok ok]
    rfl
  · rw [exec_setLevel_at_initLow hp, if_neg (Bool.eq_false_iff.1 fail),
      raise_first_of_owned (by simpa using held) (by simpa using clean), portSetLevel_of_fail fail]
    rfl

theorem encodingStep_of_abort {s : State} (h : s.abortp = true) :
    encodingStep s = .next (s.raise (abortError s.k)) := by
  rw [encodingStep, if_pos (by rw [h]; rfl)]

theorem encodingStep_of_unwritten {s : State} (ha : s.abortp = false) (hc : memRead s.codes s.k.toNat = none) :
    encodingStep s = .fault .codeUnwritten := by
  rw [encodingStep, if_neg (by simp [ha]), hc]

/-- Settles O18: the abort is looked at first, then the code, whose plan is what SCHEDULE makes of its symbols. -/
theorem encodingStepAbortsOrTakesThePlan : Obligations.EncodingStepAbortsOrTakesThePlan := by
  intro s hm hst held clean
  have issued := (step_of_no_move hm).trans (engineStep_encoding ((position_encoding_iff s).2 hst))
  refine ⟨fun ha => ?abort, fun c ha hc hb hp => ?plan, fun ha hc => ?unwritten⟩
  case abort =>
    rw [issued, encodingStep_of_abort ha, raise_first_of_owned held clean]
    rfl
  case plan =>
    exact ⟨encodeCode c.toNat s.bitlen.toNat, planOf c s.bitlen s.pulselen, exec_encode_of_ne_zero hb c s,
      exec_schedule_of_ne_zero hp _ _, step_encoding_takes_plan hm hst ha hc hb hp⟩
  case unwritten => rw [issued, encodingStep_of_unwritten ha hc]

/-- Settles O19: `ok` loads the wait, and `fail` raises with the code index while the handle is held. -/
theorem driveStepSetsTheSegmentLevel : Obligations.DriveStepSetsTheSegmentLevel := by
  intro s g hm hst hph held clean hg
  have hp := (position_drive_iff s).2 ⟨hst, hph⟩
  refine ⟨(step_of_no_move hm).trans (engineStep_drive hp hg), fun ok => ?_, fun fail => ?_⟩
  · rw [exec_setLevel_at_drive hp hg, if_pos ok, portSetLevel_of_ok ok]
  · rw [exec_setLevel_at_drive hp hg, if_neg (Bool.eq_false_iff.1 fail),
      raise_first_of_owned (by simpa using held) (by simpa using clean), portSetLevel_of_fail fail]
    rfl

/-- Settles O20: an answer above 0 is waited for again, and the answer 0 ends the wait. -/
theorem waitStepSleepsUntilNothingRemains : Obligations.WaitStepSleepsUntilNothingRemains := by
  intro s hm hst hph hle u
  have hp := (position_wait_iff s).2 ⟨hst, hph⟩
  refine ⟨(step_of_no_move hm).trans (engineStep_wait hp), ?_⟩
  rw [exec_sleep_at_wait hp hle, portSleep_eq]
  by_cases h0 : s.sleepAnswer s.rem = 0
  · rw [if_pos h0, if_neg (not_not_intro h0), afterWait_over_integers]
    simp only [sleepAnswerTaken_seg, sleepAnswerTaken_bitlen, sleepAnswerTaken_r, sleepAnswerTaken_iterations,
      sleepAnswerTaken_k, sleepAnswerTaken_ncodes, u]
  · rw [if_neg h0, if_pos h0]

/-- Settles O21: only a failure with no error recorded is recorded. -/
theorem finalLowStepAlwaysLeadsToRelease : Obligations.FinalLowStepAlwaysLeadsToRelease := by
  intro s hm hst hph
  have hp := (position_finalLow_iff s).2 ⟨hst, hph⟩
  refine ⟨(step_of_no_move hm).trans (engineStep_finalLow hp), fun ok => ?_, fun fail clean => ?_, fun fail failed => ?_⟩
  · rw [exec_setLevel_at_finalLow hp, if_pos ok, portSetLevel_of_ok ok]
  · rw [exec_setLevel_at_finalLow hp, if_neg (Bool.eq_false_iff.1 fail), portSetLevel_of_fail fail, State.writeRecord,
      if_pos ((okAnswerTaken_result s).trans clean)]
    rfl
  · rw [exec_setLevel_at_finalLow hp, if_neg (Bool.eq_false_iff.1 fail), portSetLevel_of_fail fail,
      writeRecord_of_error (by simpa using failed)]

/-- Settles O22: RELEASE has no answer to wait for. -/
theorem releaseStepEndsTheRun : Obligations.ReleaseStepEndsTheRun := by
  intro s hm hst hph
  have issued := (step_of_no_move hm).trans (engineStep_rel ((position_rel_iff s).2 ⟨hst, hph⟩))
  exact ⟨issued, issued.symm.trans (step_rel hm hst hph)⟩

/-- Settles O23: IDLE issues nothing and is no step of its own. -/
theorem idleEngineChangesNothing : Obligations.IdleEngineChangesNothing :=
  fun s hm idle => (step_of_no_move hm).trans (engineStep_idle ((position_idle_iff s).2 idle))

/-! ## What each position issues (R131) -/

/-- Every port operation has a bit pattern, which decodes to it (R66, R67). -/
theorem encode_decode_of_transaction {s : State} {i : Instr} {x : Transaction} (h : s.transaction i = some x) :
    ∃ e, encode i = some e ∧ decode e = .ok i := by
  cases i <;> simp only [State.transaction, reduceCtorEq] at h
  case setLevel q lv => exact ⟨_, rfl, Laws.RoundTrip.setLevel q lv _ rfl⟩
  case sleep q d => exact ⟨_, rfl, Laws.RoundTrip.sleep q d _ rfl⟩
  case acquire q => exact ⟨_, rfl, Laws.RoundTrip.acquire q _ rfl⟩
  case release q => exact ⟨_, rfl, Laws.RoundTrip.release q _ rfl⟩

/-- What is issued is a matter of the machine, not of the moves to come. -/
theorem step_of_engine_move {s : State} {i : Instr} {rest : List Slot} (issued : portOperation s = some i)
    (hm : s.moves = .engine :: rest) : step s = exec i { s with moves := rest } :=
  (step_of_move hm).trans (engineStep_of_portOperation (s := { s with moves := rest }) issued)

theorem portOperation_of_idle_or_encoding {s : State} (h : s.st = .idle ∨ s.st = .encoding) :
    portOperation s = none := by
  rcases h with h | h
  · simp only [portOperation, (position_idle_iff s).2 h]
  · simp only [portOperation, (position_encoding_iff s).2 h]

/-- Settles O32, by the position of the step. -/
theorem engineStepRunsTheIssuedOperation : Obligations.EngineStepRunsTheIssuedOperation := by
  intro s
  refine ⟨fun i issued => ⟨fun hm => ?noMove, fun rest hm => step_of_engine_move issued hm, ?bits⟩,
    portOperation_of_idle_or_encoding, fun hst hph => ?acq, fun hst hph => ?initLow, fun g hst hph hg => ?drive,
    fun hst hph => ?wait, fun hst hph => ?finalLow, fun hst hph => ?rel⟩
  case noMove => exact (step_of_no_move hm).trans (engineStep_of_portOperation issued)
  case bits =>
    obtain ⟨x, hx⟩ := transaction_of_portOperation issued
    exact encode_decode_of_transaction hx
  case acq => simp only [portOperation, (position_acq_iff s).2 ⟨hst, hph⟩]
  case initLow => simp only [portOperation, (position_initLow_iff s).2 ⟨hst, hph⟩]
  case drive => simp only [portOperation, (position_drive_iff s).2 ⟨hst, hph⟩, State.segment, hg, Option.map_some]
  case wait => simp only [portOperation, (position_wait_iff s).2 ⟨hst, hph⟩]
  case finalLow => simp only [portOperation, (position_finalLow_iff s).2 ⟨hst, hph⟩]
  case rel => simp only [portOperation, (position_rel_iff s).2 ⟨hst, hph⟩]

end Sys2Proof.Machine
end

section
/-! SUPPORT. The Transmitter's runs: the cleanup with every answer, one repeat of a plan, and the successful run. -/

namespace Sys2Proof.Machine

/-! ## The cleanup, whatever the environment answers (R110, R111) -/

/-- What an error leaves in the record is a matter of the record. -/
theorem record_writeRecord_congr {s t : State} (h : t.record = s.record) (e : ErrorInfo) :
    (t.writeRecord e).record = (s.writeRecord e).record := by
  have result : t.result = s.result := congrArg (fun r => r.1) h
  by_cases clean : s.result = .none
  · rw [writeRecord_of_none clean, writeRecord_of_none (result.trans clean)]
  · rw [writeRecord_of_error clean, writeRecord_of_error (result ▸ clean), h]

/-- FINAL_LOW leads to REL; the answer decides the level and, where no error is recorded, the record. -/
theorem step_finalLow {s : State} (hm : s.moves = []) (hst : s.st = .releasing) (hph : s.phase = false) :
    ∃ u, step s = .next u ∧ Issues s u [.setLevel s.pin .low s.okAnswer] ∧ u.moves = [] ∧ u.st = .releasing ∧
      u.phase = true ∧ u.level = (if s.okAnswer then .low else s.level) ∧
      u.record = (if s.okAnswer then s else s.writeRecord (transmitError none)).record := by
  have hp := (position_finalLow_iff s).2 ⟨hst, hph⟩
  have answered := exec_setLevel_at_finalLow hp s.pin .low
  have record : (s.portSetLevel s.pin .low).record = s.record := by simp [State.record]
  refine ⟨_, (step_of_no_move hm).trans ((engineStep_finalLow hp).trans answered), execSetLevel_issues answered,
    (execSetLevel_keeps_run_and_moves answered).2.trans hm, ?st, rfl, ?level, ?record⟩
  case st => split <;> simpa using hst
  case level => cases answer : s.okAnswer <;> simp [answer]
  case record =>
    split
    · exact record
    · exact record_writeRecord_congr record _

/-- Settles O48: the answer at FINAL_LOW decides the level and the record, and REL has none. -/
theorem cleanupAlwaysEndsInIdle : Obligations.CleanupAlwaysEndsInIdle := by
  intro s hm hst hph
  obtain ⟨u, low, issued, moves, st, phase, level, record⟩ := step_finalLow hm hst hph
  have pin : u.pin = s.pin := congrArg (fun c => c.2.2.1) issued.configuration
  have run := (run_succ_of_next low).trans ((run_one u).trans (step_rel moves st phase))
  refine ⟨_, s.okAnswer, run, ?trace, rfl, rfl, rfl, rfl, rfl, issued.configuration, ?kept, fun clean fail => ?failed,
    level⟩
  case trace => rw [issued.trace, pin, List.append_assoc]; rfl
  case kept =>
    rintro (failed | ok)
    · exact record.trans (by rw [writeRecord_of_error failed, ite_self])
    · exact record.trans (by rw [if_pos ok])
  case failed => exact record.trans (by rw [if_neg (Bool.eq_false_iff.1 fail), writeRecord_of_none clean]; rfl)

/-! ## One repeat (R107, R109) -/

/-- The end of a plan moves the counters and the position only. -/
theorem afterPlan_frame (s : State) :
    ∃ st r k, afterPlan s = { s with seg := 0, phase := false, st := st, r := r, k := k } := by
  unfold afterPlan afterCode
  split_ifs <;> exact ⟨_, _, _, rfl⟩

/-- Where the end of a plan leads. -/
theorem afterPlan_position {s : State} (hst : s.st = .transmitting) :
    if s.r.toNat + 1 < s.iterations.toNat then
      (afterPlan s).st = .transmitting ∧ (afterPlan s).r = s.r + 1 ∧ (afterPlan s).k = s.k ∧ (afterPlan s).plan = s.plan
    else if s.k.toNat + 1 < s.ncodes.toNat then
      (afterPlan s).st = .encoding ∧ (afterPlan s).r = 0 ∧ (afterPlan s).k = s.k + 1
    else (afterPlan s).st = .releasing ∧ (afterPlan s).r = 0 ∧ (afterPlan s).k = s.k := by
  unfold afterPlan afterCode
  split_ifs
  · exact ⟨hst, rfl, rfl, rfl⟩
  · exact ⟨rfl, rfl, rfl⟩
  · exact ⟨rfl, rfl, rfl⟩

/-- Settles O54: the plan is sent segment by segment, and its end moves the counters and the position only. -/
theorem oneRepeatSendsThePlanInOrder : Obligations.OneRepeatSendsThePlanInOrder := by
  intro s oks sleeps hm hst hph hseg hlen _ ho hz
  obtain ⟨lv, run⟩ := run_plan hm hst hph hseg hlen ho hz
  have position := afterPlan_position (s := s.sent lv oks sleeps (planTrace s.pin s.plan)) hst
  obtain ⟨st, r, k, after⟩ := afterPlan_frame (s.sent lv oks sleeps (planTrace s.pin s.plan))
  rw [after] at run position
  exact ⟨_, run, rfl, rfl, rfl, rfl, rfl, rfl, rfl, rfl, position⟩

/-! ## The successful run (R101) -/

/-- Settles O55: from ACQ back to IDLE the engine issues the contract's port trace, and the record stays as it was. -/
theorem successfulRunHasTheContractTrace : Obligations.SuccessfulRunHasTheContractTrace := by
  intro s codes oks sleeps hm hst hph _ clean ha hn hi hb hp hl ho hz
  obtain ⟨plan, k, run⟩ := run_contract hm hst hph ha hn hi hb hp hl ho hz
  exact ⟨_, run, rfl, if_pos clean, rfl, rfl, rfl, rfl, rfl, rfl⟩

end Sys2Proof.Machine
end

section
/-! SUPPORT. The GPIO port: where its operations complete, and what each leaves beside its transaction, at every
position. -/

namespace Sys2Proof.Machine

/-! ## Where a port operation completes (R130, R135) -/

theorem exec_sleep_of_answer_above {s : State} {d : Dur} (above : d < s.sleepAnswer d) (q : Word) :
    exec (.sleep q d) s = .refused .sleepAnswerTooLong := by
  rw [exec, execSleep, if_neg (BitVec.not_le.2 above)]

/-- Away from WAIT a SLEEP is its transaction and nothing else (R134; log 11). -/
theorem exec_sleep_elsewhere {s : State} {d : Dur} (hp : s.position ≠ .wait) (hle : s.sleepAnswer d ≤ d) (q : Word) :
    exec (.sleep q d) s = .next (s.portSleep q d) := by
  rw [exec, execSleep, if_pos hle]
  split
  · contradiction
  · rfl

theorem exec_sleep_completes {s : State} {d : Dur} (hle : s.sleepAnswer d ≤ d) (q : Word) :
    ∃ t, exec (.sleep q d) s = .next t := by
  by_cases hp : s.position = .wait
  · exact ⟨_, exec_sleep_at_wait hp hle q⟩
  · exact ⟨_, exec_sleep_elsewhere hp hle q⟩

/-- The environment keeps its contract where its answer is free (R135). -/
theorem sleepAnswer_le_of_unwritten {s : State} (h : s.sleepAnswers = []) (d : Dur) : s.sleepAnswer d ≤ d := by
  rw [(sleepAnswer_of_unwritten h d).1]
  exact freeRemaining_le _ _

theorem exec_acquire_completes (q : Word) (s : State) : ∃ t, exec (.acquire q) s = .next t := by
  cases answer : s.okAnswer with
  | true => exact ⟨_, by rw [exec, execAcquire, if_pos answer]⟩
  | false => exact ⟨_, exec_acquire_of_fail answer q⟩

theorem execSetLevel_not_refused (q : Word) (lv : Level) (s : State) (e : Refusal) :
    execSetLevel q lv s ≠ .refused e := by
  intro h
  simp only [execSetLevel] at h
  split at h <;> cases h

theorem exec_setLevel_completes {s : State} (h : ¬ (s.position = .drive ∧ s.segment = none)) (q : Word) (lv : Level) :
    ∃ t, exec (.setLevel q lv) s = .next t := by
  cases answer : exec (.setLevel q lv) s with
  | next t => exact ⟨t, rfl⟩
  | fault e =>
    obtain ⟨drive, missing, -⟩ := execSetLevel_fault answer
    exact absurd ⟨drive, missing⟩ h
  | refused e => exact absurd answer (execSetLevel_not_refused q lv s e)

/-! ## What a port operation leaves (R26, R27, R132, R134, R136, R138) -/

/-- The engine's record of the level after a transaction (R27). -/
def Transaction.levelAfter (level : Level) : Transaction → Level
  | .setLevel _ lv ok => if ok then lv else level
  | .sleep _ _ _ => level
  | .acquire _ _ => level
  | .release _ => level

/-- What an operation that issues the transaction `x` leaves: the plan and the moves to come, and `LEVEL` but for what
`x` does to it. -/
structure Leaves (s t : State) (x : Transaction) : Prop where
  plan : t.plan = s.plan
  moves : t.moves = s.moves
  level : t.level = x.levelAfter s.level

theorem execSetLevel_leaves {q : Word} {lv : Level} {s t : State} (h : execSetLevel q lv s = .next t) :
    Leaves s t (.setLevel q lv s.okAnswer) := by
  simp only [execSetLevel] at h
  split at h <;> cases h
  all_goals constructor <;> split <;> simp [Transaction.levelAfter]

/-- The end of a wait moves the counters and the position only (R109). -/
theorem afterWait_frame (s : State) :
    ∃ seg r k st, afterWait s = { s with seg := seg, r := r, k := k, st := st, phase := false } := by
  rcases afterWait_cases s with ⟨-, e⟩ | ⟨-, -, e⟩ | ⟨-, -, -, e⟩ | ⟨-, -, -, e⟩ <;> exact ⟨_, _, _, _, e⟩

/-- A SLEEP records no error: an answer above 0 is absorbed (R134, R157). -/
theorem execSleep_leaves {q : Word} {d : Dur} {s t : State} (h : execSleep q d s = .next t) :
    Leaves s t (.sleep q d (s.sleepAnswer d)) ∧ t.record = s.record := by
  have leaves : Leaves s (s.portSleep q d) (.sleep q d (s.sleepAnswer d)) :=
    ⟨portSleep_plan s q d, portSleep_moves s q d, portSleep_level s q d⟩
  have record : (s.portSleep q d).record = s.record := by simp [State.record]
  rcases (execSleep_cases h).2 with ⟨-, rfl⟩ | ⟨-, -, rfl⟩ | ⟨-, -, rfl⟩
  · exact ⟨leaves, record⟩
  · exact ⟨⟨leaves.plan, leaves.moves, leaves.level⟩, record⟩
  · obtain ⟨seg, r, k, st, e⟩ := afterWait_frame { s.portSleep q d with rem := 0 }
    rw [e]
    exact ⟨⟨leaves.plan, leaves.moves, leaves.level⟩, record⟩

theorem execAcquire_leaves {q : Word} {s t : State} (h : execAcquire q s = .next t) :
    Leaves s t (.acquire q s.okAnswer) := by
  simp only [execAcquire] at h
  split at h <;> cases h
  · constructor <;> split <;> simp [Transaction.levelAfter]
  · constructor <;> simp [Transaction.levelAfter]

/-- RELEASE has no answer, and records no error (R138). -/
theorem execRelease_leaves {q : Word} {s t : State} (h : execRelease q s = .next t) :
    Leaves s t (.release q) ∧ t.record = s.record := by
  simp only [execRelease] at h
  cases h
  split <;> exact ⟨⟨rfl, rfl, rfl⟩, rfl⟩

/-! ## The statements -/

/-- Settles O24: where each operation completes, what it issues, and what it leaves beside that. -/
theorem portOperationsLogOneTransaction : Obligations.PortOperationsLogOneTransaction := by
  intro s q lv d
  refine ⟨?acquire, ?release, fun segment => ?setLevel, fun hle => ?sleep⟩
  case acquire =>
    obtain ⟨t, h⟩ := exec_acquire_completes q s
    have issues := execAcquire_issues h
    have leaves := execAcquire_leaves h
    exact ⟨t, h, issues.trace, issues.configuration, leaves.plan, leaves.moves, leaves.level, issues.owned⟩
  case release =>
    obtain ⟨t, h⟩ : ∃ t, exec (.release q) s = .next t := ⟨_, rfl⟩
    have issues := execRelease_issues h
    obtain ⟨leaves, record⟩ := execRelease_leaves h
    exact ⟨t, h, issues.trace, issues.configuration, leaves.plan, leaves.moves, leaves.level, record, issues.owned⟩
  case setLevel =>
    rw [← and_assoc, ← position_drive_iff] at segment
    obtain ⟨t, h⟩ := exec_setLevel_completes segment q lv
    have issues := execSetLevel_issues h
    have leaves := execSetLevel_leaves h
    exact ⟨t, h, issues.trace, issues.configuration, leaves.plan, leaves.moves, leaves.level, issues.owned⟩
  case sleep =>
    obtain ⟨t, h⟩ := exec_sleep_completes hle q
    have issues := execSleep_issues h
    obtain ⟨leaves, record⟩ := execSleep_leaves h
    exact ⟨t, h, issues.trace, issues.configuration, leaves.plan, leaves.moves, leaves.level, issues.owned, record⟩

/-- Settles O15: a SLEEP compares the answer with the request, and a free answer keeps the bound. -/
theorem sleepRefusesOnlyAnswersAboveTheRequest : Obligations.SleepRefusesOnlyAnswersAboveTheRequest :=
  fun q d _ => ⟨fun above => exec_sleep_of_answer_above above q, fun hle => exec_sleep_completes hle q,
    fun unwritten => exec_sleep_completes (sleepAnswer_le_of_unwritten unwritten d) q⟩

end Sys2Proof.Machine
end

section
/-! SUPPORT. Errors and early returns: what raising an error writes, that the first error of a run stands, and the wait
that is interrupted and goes on. -/

namespace Sys2Proof.Machine

/-! ## Raising an error (R154) -/

/-- Settles O25: part (1) of `raise` writes the record, and whether the handle is held decides part (2). -/
theorem raiseRecordsTheFirstErrorAndEndsTheRun : Obligations.RaiseRecordsTheFirstErrorAndEndsTheRun := by
  intro s e u
  have written : s.writeRecord e = u := by
    unfold u State.writeRecord
    cases e.codeIndex <;> rfl
  refine ⟨fun held => ?_, fun free => ?_⟩
  · rw [raise_of_owned held, written]
    rfl
  · rw [raise_of_not_owned free, written]
    rfl

/-! ## The first error of a run stands (R154, R161) -/

/-- The end of the run is no matter of the record. -/
theorem raise_record (s : State) (e : ErrorInfo) : (s.raise e).record = (s.writeRecord e).record := by
  simp only [State.raise, State.record, endRun_result, endRun_stage, endRun_badparam, endRun_cidxv, endRun_erridx]

theorem writeRecord_record_of_error {s : State} (failed : s.result ≠ .none) (e : ErrorInfo) :
    (s.writeRecord e).record = s.record := congrArg State.record (writeRecord_of_error failed e)

theorem raise_record_of_error {s : State} (failed : s.result ≠ .none) (e : ErrorInfo) :
    (s.raise e).record = s.record := (raise_record s e).trans (writeRecord_record_of_error failed e)

theorem portSetLevel_record (s : State) (q : Word) (lv : Level) : (s.portSetLevel q lv).record = s.record := by
  simp [State.record]

theorem portAcquire_record (s : State) (q : Word) : (s.portAcquire q).record = s.record := by simp [State.record]

/-- A SETLEVEL that is answered `ok` records nothing, and one that fails finds the record written. -/
theorem execSetLevel_keeps_error {q : Word} {lv : Level} {s t : State} (failed : s.result ≠ .none)
    (h : execSetLevel q lv s = .next t) : t.record = s.record := by
  have kept := portSetLevel_record s q lv
  have found : (s.portSetLevel q lv).result ≠ .none := by rwa [portSetLevel_result]
  have raised := fun e => (raise_record_of_error found e).trans kept
  simp only [execSetLevel] at h
  cases answer : s.okAnswer <;> simp only [answer, if_true, if_false, Bool.false_eq_true] at h
  case true => split at h <;> cases h <;> exact kept
  case false =>
    split at h <;> cases h
    -- FINAL_LOW records the failure and goes on (R110); everywhere else it is raised.
    case h_4 => exact (writeRecord_record_of_error found _).trans kept
    all_goals exact raised _

theorem execAcquire_keeps_error {q : Word} {s t : State} (failed : s.result ≠ .none)
    (h : execAcquire q s = .next t) : t.record = s.record := by
  have kept := portAcquire_record s q
  simp only [execAcquire] at h
  split at h <;> cases h
  · split <;> exact kept
  · exact (raise_record_of_error (by rwa [portAcquire_result]) _).trans kept

/-- A port operation writes the record only where its failure is the first error (R154). -/
theorem exec_keeps_error {i : Instr} {x : Transaction} {s t : State} (failed : s.result ≠ .none)
    (hx : s.transaction i = some x) (h : exec i s = .next t) : t.record = s.record := by
  cases i <;> simp only [State.transaction, reduceCtorEq] at hx
  case setLevel q lv => exact execSetLevel_keeps_error failed h
  case sleep q d => exact (execSleep_leaves h).2
  case acquire q => exact execAcquire_keeps_error failed h
  case release q => exact (execRelease_leaves h).2

theorem encodingStep_keeps_error {s t : State} (failed : s.result ≠ .none) (h : encodingStep s = .next t) :
    t.record = s.record := by
  rcases encodingStep_cases h with ⟨-, rfl⟩ | ⟨-, -, rfl⟩ | ⟨c, -, -, -, -, rfl⟩ | ⟨c, -, -, -, -, rfl⟩
  · exact raise_record_of_error failed _
  · exact raise_record_of_error failed _
  · exact raise_record_of_error (s := { s with symOut := encodeCode c.toNat s.bitlen.toNat }) failed _
  · rfl

theorem engineStep_keeps_error {s t : State} (failed : s.result ≠ .none) (h : engineStep s = .next t) :
    t.record = s.record := by
  rcases engineStep_cases h with ⟨-, rfl⟩ | ⟨-, he⟩ | ⟨i, x, -, hx, he⟩
  · rfl
  · exact encodingStep_keeps_error failed he
  · exact exec_keeps_error failed hx he

/-- An access of the host leaves the record while a run is in progress: only START clears it (R103). -/
theorem hostStep_keeps_record_of_busy {a : HostAccess} {s t : State} (busy : s.st ≠ .idle)
    (h : hostStep a s = .next t) : t.record = s.record := by
  rcases hostStep_cases h with ⟨_, rfl⟩ | ⟨i, v, rfl⟩ | rfl | rfl | ⟨idle, -⟩
  · rfl
  · rw [regWrite_of_busy busy]
  · rfl
  · rfl
  · exact absurd idle busy

/-- Settles O47, by whose move it is: the engine finds the record written, and a host's access or a reset clears it in
IDLE only. -/
theorem firstErrorOfARunWins : Obligations.FirstErrorOfARunWins := by
  intro s t busy failed h
  obtain ⟨ms, he | ⟨a, ha⟩ | ⟨idle, -⟩⟩ := step_cases h
  · exact engineStep_keeps_error (s := { s with moves := ms }) failed he
  · exact hostStep_keeps_record_of_busy (s := { s with moves := ms }) busy ha
  · exact absurd idle busy

/-! ## The transactions of an interrupted wait (R157, R192) -/

/-- The SLEEP transactions of a wait of `d` microseconds that returns early with each of the remainders in turn, and
then not again. -/
def waitTrace (pin : Word) (d : Dur) : List Dur → List Transaction
  | [] => [.sleep pin d 0]
  | a :: early => .sleep pin d a :: waitTrace pin a early

theorem waitTrace_length (pin : Word) (d : Dur) (early : List Dur) :
    (waitTrace pin d early).length = early.length + 1 := by
  induction early generalizing d with
  | nil => rfl
  | cons a early ih => exact congrArg (· + 1) (ih a)

theorem accountedTime_cons (x : Transaction) (ts : List Transaction) :
    accountedTime (x :: ts) = accountedOf x + accountedTime ts := List.sum_cons

/-- Each transaction accounts for what its successor no longer asks for. -/
theorem accountedTime_waitTrace (pin : Word) {d : Dur} {early : List Dur}
    (falling : (d :: early).IsChain (fun d a => a ≤ d)) : accountedTime (waitTrace pin d early) = d.toNat := by
  induction early generalizing d with
  | nil => simp [waitTrace, accountedTime, accountedOf]
  | cons a early ih =>
    obtain ⟨hle, falling⟩ := List.isChain_cons_cons.1 falling
    have shorter : a.toNat ≤ d.toNat := hle
    calc accountedTime (waitTrace pin d (a :: early))
        = (d.toNat - a.toNat) + accountedTime (waitTrace pin a early) := accountedTime_cons _ _
      _ = (d.toNat - a.toNat) + a.toNat := by rw [ih falling]
      _ = d.toNat := Nat.sub_add_cancel shorter

/-- The transactions keep R134 and R135. -/
theorem waitTrace_sleeps {pin : Word} {d : Dur} {early : List Dur} (hd : d ≠ 0)
    (falling : (d :: early).IsChain (fun d a => a ≤ d)) (more : ∀ a ∈ early, a ≠ 0) :
    ∀ x ∈ waitTrace pin d early, ∃ d a : Dur, x = .sleep pin d a ∧ 1 ≤ d.toNat ∧ a ≤ d := by
  have asks : ∀ {d : Dur}, d ≠ 0 → 1 ≤ d.toNat := fun h => by bv_omega
  induction early generalizing d with
  | nil =>
    intro x hx
    exact ⟨d, 0, List.mem_singleton.1 hx, asks hd, Nat.zero_le _⟩
  | cons a early ih =>
    obtain ⟨hle, falling⟩ := List.isChain_cons_cons.1 falling
    obtain ⟨ha, more⟩ := List.forall_mem_cons.1 more
    exact List.forall_mem_cons.2 ⟨⟨d, a, rfl, asks hd, hle⟩, ih ha falling more⟩

/-! ## The run of an interrupted wait (R157, R187, R192) -/

theorem step_wait {s : State} (hm : s.moves = []) (hst : s.st = .transmitting) (hph : s.phase = true) :
    step s = exec (.sleep s.pin s.rem) s :=
  (step_of_no_move hm).trans (engineStep_wait ((position_wait_iff s).2 ⟨hst, hph⟩))

/-- A SLEEP that returns early leaves its remainder to be slept. -/
theorem step_wait_early {s : State} {a : Dur} {sleeps : List Dur} (hm : s.moves = []) (hst : s.st = .transmitting)
    (hph : s.phase = true) (hz : s.sleepAnswers = a :: sleeps) (hle : a ≤ s.rem) (ha : a ≠ 0) :
    step s = .next { s with sleepAnswers := sleeps, rem := a, trace := s.trace ++ [.sleep s.pin s.rem a] } := by
  have hp := (position_wait_iff s).2 ⟨hst, hph⟩
  obtain ⟨answer, taken⟩ := sleepAnswer_of_written hz s.rem
  rw [step_wait hm hst hph, exec_sleep_at_wait hp (answer.symm ▸ hle), portSleep_eq, answer, taken,
    if_neg ha]

/-- The wait ends as one that is slept to its end does, with the transactions of all its SLEEPs. -/
theorem run_interrupted_wait {s : State} {early sleeps : List Dur} (hm : s.moves = []) (hst : s.st = .transmitting)
    (hph : s.phase = true) (falling : (s.rem :: early).IsChain (fun d a => a ≤ d)) (more : ∀ a ∈ early, a ≠ 0)
    (hz : s.sleepAnswers = early ++ 0 :: sleeps) :
    runFor (early.length + 1) s =
      .next (afterWait (s.sent s.level s.okAnswers sleeps (waitTrace s.pin s.rem early))) := by
  induction early generalizing s with
  | nil => exact (run_one s).trans (step_wait_zero hm hst hph hz)
  | cons a early ih =>
    obtain ⟨hle, falling⟩ := List.isChain_cons_cons.1 falling
    obtain ⟨ha, more⟩ := List.forall_mem_cons.1 more
    have later := @ih { s with
      sleepAnswers := early ++ 0 :: sleeps, rem := a, trace := s.trace ++ [.sleep s.pin s.rem a] }
      hm hst hph falling more rfl
    rw [List.length_cons, run_succ_of_next (step_wait_early hm hst hph hz hle ha)]
    refine later.trans ?_
    simp only [State.sent, waitTrace, List.append_assoc, List.singleton_append]

/-- Where a wait ends is no matter of the trace (R109). -/
theorem afterWait_with_trace (s : State) (ts : List Transaction) :
    afterWait { s with trace := ts } = { afterWait s with trace := ts } := by
  unfold afterWait
  split_ifs <;> rfl

/-- Settles O53: the interrupted wait ends where the wait with the one answer 0 does, but for the trace. -/
theorem interruptedWaitSleepsTheWholeDuration : Obligations.InterruptedWaitSleepsTheWholeDuration := by
  intro s early rest hm hst hph hrem falling more hz
  have interrupted := run_interrupted_wait hm hst hph falling more hz
  have uninterrupted := (step_wait (s := { s with sleepAnswers := 0 :: rest }) hm hst hph).symm.trans
    (step_wait_zero (s := { s with sleepAnswers := 0 :: rest }) hm hst hph rfl)
  exact ⟨_, _, waitTrace s.pin s.rem early, interrupted, uninterrupted,
    afterWait_with_trace (s.sent s.level s.okAnswers rest [.sleep s.pin s.rem 0]) _,
    waitTrace_length s.pin s.rem early, accountedTime_waitTrace s.pin falling, waitTrace_sleeps hrem falling more⟩

end Sys2Proof.Machine
end

section
/-! SUPPORT. The time of the contract's trace (R191), and the reset move (R180, R181). -/

namespace Sys2Proof.Machine

/-! ## A reset in and out of a run -/

theorem resetStep_of_busy {s : State} (busy : s.st ≠ .idle) : resetStep s = .refused .resetDuringRun :=
  if_pos (by simpa [State.busy] using busy)

theorem resetStep_of_idle {s : State} (idle : s.st = .idle) : resetStep s = .next s.toReset :=
  if_neg (not_busy_of_idle idle)

/-- Settles O38: the move is taken off the list, and whether a run is in progress decides the reset. -/
theorem resetIsRefusedDuringARun : Obligations.ResetIsRefusedDuringARun := fun s rest hm =>
  ⟨fun busy => (step_of_move hm).trans (resetStep_of_busy (s := { s with moves := rest }) busy),
    fun idle => (step_of_move hm).trans (resetStep_of_idle (s := { s with moves := rest }) idle)⟩

/-! ## The time of a trace, part by part -/

theorem planTime_planOf (c b p : Word) : planTime (planOf c b p) = (4 * b.toNat + 32) * p.toNat := by
  rw [planOf, planTime_schedulePlan, encodeCode_length]

theorem accountedTime_append (ts us : List Transaction) :
    accountedTime (ts ++ us) = accountedTime ts + accountedTime us := by
  rw [accountedTime, List.map_append, List.sum_append, accountedTime, accountedTime]

/-- Of a segment's two transactions only the SLEEP accounts for time, and that for the whole duration. -/
theorem accountedTime_segmentTrace (pin : Word) (g : Segment) :
    accountedTime (segmentTrace pin g) = g.duration.toNat := by
  simp [segmentTrace, accountedTime, accountedOf]

theorem accountedTime_planTrace (pin : Word) (plan : List Segment) :
    accountedTime (planTrace pin plan) = planTime plan := by
  induction plan with
  | nil => rfl
  | cons g plan ih =>
    rw [planTrace_cons, accountedTime_append, accountedTime_segmentTrace, ih]
    exact List.sum_cons.symm

theorem accountedTime_repeatTrace (repeats : Nat) (pin : Word) (plan : List Segment) :
    accountedTime (repeatTrace repeats pin plan) = repeats * planTime plan := by
  induction repeats with
  | zero => rw [Nat.zero_mul]; rfl
  | succ repeats ih =>
    rw [repeatTrace_succ, accountedTime_append, accountedTime_planTrace, ih, Nat.succ_mul, Nat.add_comm]

theorem accountedTime_codesTrace (codes : List Word) (iterations pin p b : Word) :
    accountedTime (codesTrace codes iterations pin p b) =
      codes.length * (iterations.toNat * ((4 * b.toNat + 32) * p.toNat)) := by
  induction codes with
  | nil => rw [List.length_nil, Nat.zero_mul]; rfl
  | cons c codes ih =>
    rw [codesTrace_cons, accountedTime_append, accountedTime_repeatTrace, planTime_planOf, ih,
      List.length_cons, Nat.add_one_mul codes.length, Nat.add_comm]

/-- The acquisition before the codes and the cleanup after them account for no time. -/
theorem accountedTime_contractTrace (codes : List Word) (iterations pin p b : Word) :
    accountedTime (contractTrace codes iterations pin p b) = accountedTime (codesTrace codes iterations pin p b) := by
  rw [contractTrace_eq, accountedTime_cons, accountedTime_cons, accountedTime_append]
  simp [accountedTime, accountedOf]

/-- Settles O56: a plan lasts 4 units per symbol and 32 for the footer, and the trace sends each code's plan
`iterations` times. -/
theorem contractTraceLastsTheComputableTime : Obligations.ContractTraceLastsTheComputableTime := by
  intro codes iterations pin p b
  refine ⟨fun c => planTime_planOf c b p, ?_⟩
  rw [accountedTime_contractTrace, accountedTime_codesTrace, Nat.mul_assoc, Nat.mul_assoc]

end Sys2Proof.Machine
end
